-- ==== Sys2Proof/Word.lean ====
section
/-! DEFINITION. The values OWD computes with: bytes, logic levels, the pair of registers indexed by a
level, the four symbols, and one sample of the input ports. Spec: 00_scope.md R5, R8, R9; 30_encoding.md R47, R54.

A tick value or a duration is a `Nat`: R5 lets a model use unbounded naturals. That the values of the machine fit
`TICK_W` bits is part of the invariant `Machine.Inv` (log entry 6). -/

namespace Sys2Proof

/-- One byte of the frame buffer; bit 7 is the most significant (00_scope.md, notation). -/
abbrev Byte := BitVec 8

/-- R8: "index 0 = LOW, 1 = HIGH". -/
inductive Level where
  | low
  | high
  deriving DecidableEq, Repr

/-- A two-element register array indexed by logic level (R8): `lt[0..1]` or `ld[0..1]`. -/
structure PerLevel where
  low : Nat
  high : Nat
  deriving DecidableEq, Repr

/-- The classifier's result, "`Symbol {Bit0, Bit1, Reset, None}`" (R54, R96). -/
inductive Symbol where
  /-- NONE, "emit nothing" -/
  | noSym
  /-- FRAME_RESET -/
  | frameReset
  /-- BIT_0 -/
  | bit0
  /-- BIT_1 -/
  | bit1
  deriving DecidableEq, Repr

/-- What the input ports carry at one rising edge of `clk`: the command word `cmd[3:0] = {rst, rd_req, ev_valid,
ev_level}` and the value on port `tick` (R45, R46, R47). -/
structure PortSample where
  cmd : BitVec 4
  tick : Nat
  deriving DecidableEq, Repr

end Sys2Proof
end

