-- ==== Sys2Proof/Config.lean ====
section
/-! DEFINITION. The parameters of OWD (00_scope.md R2 to R6) and the type of the calibration profile `P`
(10_state.md R20). They are arguments of every statement: `Machine.State` carries them in fields that no operation
of the machine changes (log entry 3). No value of OWD is left free, so there is no opaque constant. -/

namespace Sys2Proof

/-- The parameter table of 00_scope.md section 4. -/
structure Config where
  /-- `ROWS` (R2), OPEN -/
  rows : Nat
  /-- `COLS` (R2), OPEN -/
  cols : Nat
  /-- `F_HZ` in ticks per second (R3), OPEN; `none` is the "undefined (none supplied)" frequency of R130 -/
  fHz : Option Nat
  /-- `T0H_NS` (R4): bit-0 nominal high duration -/
  t0hNs : Nat
  /-- `T0L_NS` (R4): bit-0 nominal low duration -/
  t0lNs : Nat
  /-- `T1H_NS` (R4): bit-1 nominal high duration -/
  t1hNs : Nat
  /-- `T1L_NS` (R4): bit-1 nominal low duration -/
  t1lNs : Nat
  /-- `TOL_NS` (R4): the tolerance band -/
  tolNs : Nat
  /-- `TRESET_NS` (R4): the reset threshold -/
  tresetNs : Nat
  /-- `TICK_W` (R5): the width of a tick value -/
  tickW : Nat
  /-- `FRAME_INIT` (R6): the content of the frame buffer at reset -/
  frameInit : List Byte
  deriving DecidableEq, Repr

/-- The source's values of the timing constants (R4), `TICK_W = 64` (R5) and an all-zero `FRAME_INIT` (R6) for the
OPEN parameters `ROWS`, `COLS`, `F_HZ`. -/
def Config.withDefaults (rows cols : Nat) (fHz : Option Nat) : Config where
  rows := rows
  cols := cols
  fHz := fHz
  t0hNs := 400
  t0lNs := 850
  t1hNs := 800
  t1lNs := 450
  tolNs := 150
  tresetNs := 50000
  tickW := 64
  frameInit := List.replicate (rows * cols * 3) 0

/-- The configuration of `Machine.State.reset`: one LED cell (`N = 3`) at the source's example frequency.
DESIGN CHOICE (log entry 3, unsafe): the spec leaves `ROWS`, `COLS` and `F_HZ` OPEN. -/
def Config.standard : Config := Config.withDefaults 1 1 (some 16000000)

/-- A TimingWindow `{min, max}`: "an inclusive acceptable range of pulse duration" (00_scope.md glossary, R95). -/
structure TimingWindow where
  min : Nat
  max : Nat
  deriving DecidableEq, Repr

/-- A SymbolTiming `{low, high}` for one bit value (00_scope.md glossary). -/
structure SymbolTiming where
  low : TimingWindow
  high : TimingWindow
  deriving DecidableEq, Repr

/-- The CalibrationProfile `P`, the nine constants of R20. -/
structure CalibrationProfile where
  zero : SymbolTiming
  one : SymbolTiming
  resetThreshold : Nat
  deriving DecidableEq, Repr

end Sys2Proof
end

