-- ==== Sys2Proof/Machine/Calibration.lean ====
section
/-! DEFINITION. The arithmetic of CALIBRATE (40_calibration.md R65 to R67, R73) and the constraints the spec puts on
the parameters (00_scope.md R2 to R6). The operation itself is in Machine/Elaboration.lean. -/

namespace Sys2Proof

/-- R2: `N = ROWS * COLS * 3` bytes. -/
def Config.frameBytes (c : Config) : Nat := c.rows * c.cols * 3

/-- `FRAME_INIT[a]` (R6): what a byte of either buffer holds at reset. -/
def Config.initByte (c : Config) (a : Nat) : Byte := c.frameInit.getD a 0

/-- The constraints of 00_scope.md on the parameters other than the frequency: `ROWS >= 1`, `COLS >= 1` (R2),
`TOL_NS` at most every nominal (R4), `TICK_W >= 1` (R5), `FRAME_INIT` of `N` bytes (R6). -/
def Config.withinSpec (c : Config) : Bool :=
  decide (1 ≤ c.rows) && decide (1 ≤ c.cols)
    && decide (c.tolNs ≤ c.t0hNs) && decide (c.tolNs ≤ c.t0lNs)
    && decide (c.tolNs ≤ c.t1hNs) && decide (c.tolNs ≤ c.t1lNs)
    && decide (1 ≤ c.tickW) && decide (c.frameInit.length = c.frameBytes)

/-- R66: `ticks_floor(x) = (x * F_HZ) div 1000000000`, over unbounded naturals (R73). -/
def ticksFloor (fHz x : Nat) : Nat := x * fHz / 1000000000

/-- R65: `window(nominal) = { min: ticks_floor(nominal - TOL_NS) + 1, max: ticks_floor(nominal + TOL_NS) }`. -/
def calibratedWindow (fHz tolNs nominal : Nat) : TimingWindow where
  min := ticksFloor fHz (nominal - tolNs) + 1
  max := ticksFloor fHz (nominal + tolNs)

/-- The nine values of R20, by R65 and R67. -/
def profileFor (c : Config) (fHz : Nat) : CalibrationProfile where
  zero :=
    { low := calibratedWindow fHz c.tolNs c.t0lNs
      high := calibratedWindow fHz c.tolNs c.t0hNs }
  one :=
    { low := calibratedWindow fHz c.tolNs c.t1lNs
      high := calibratedWindow fHz c.tolNs c.t1hNs }
  resetThreshold := ticksFloor fHz c.tresetNs + 1

/-- The nine values of a profile in the order of R20's table. -/
def CalibrationProfile.values (P : CalibrationProfile) : List Nat :=
  [P.zero.low.min, P.zero.low.max, P.zero.high.min, P.zero.high.max,
   P.one.low.min, P.one.low.max, P.one.high.min, P.one.high.max, P.resetThreshold]

/-- R73: "All nine values must be representable in `TICK_W` bits." -/
def CalibrationProfile.fits (P : CalibrationProfile) (tickW : Nat) : Bool :=
  P.values.all fun v => decide (v < 2 ^ tickW)

end Sys2Proof
end

