-- ==== Sys2Proof/Machine/State.lean ====
section
/-! DEFINITION. The state of OWD (10_state.md), its reset value (R23), and the reasons an operation gives no next
state. -/

namespace Sys2Proof.Machine

/-- One copy of the frame buffer (20_memory.md R30), as the bytes that differ from `FRAME_INIT`: addresses strictly
rising and below `N`, no entry equal to `FRAME_INIT` at its address (`Memory.wellFormed` in Machine/Ops.lean).
An unlisted address reads as `FRAME_INIT` there, the content R23 gives at reset. -/
abbrev Memory := List Host.Cell

/-- Run-time faults. There are none: "No run-time event raises anything" (R131), a step "never returns a fault"
(R132), and there is no trap mechanism (R137). `CalibrationError` is a refusal, the treatment that
93_implementation_defined.md U2 gives it: "It is not a run-time `fault`" (log entry 9, safe). -/
inductive Fault where
  deriving DecidableEq, Repr

/-- Why an input has no successor state. -/
inductive Refusal where
  /-- Raised by an arm of `exec` whose operation has no meaning yet; no arm is left so. Safe. -/
  | notModelled (mnemonic : String)
  /-- Raised by FALL, RISE, READ_FALL, READ_RISE when the tick is below that of an earlier transition: "An event
  that violates the precondition has no specified meaning: a model refuses it" (R82, U1). Safe (log entry 7). -/
  | tickDecreased
  /-- Raised by every operation but CALIBRATE on a state without a profile: "no profile exists, therefore no decoder
  instance exists, therefore no event can be applied" (R130). Safe (log entry 8). -/
  | noDecoder
  /-- Raised by CALIBRATE: OWD's one exception, `CalibrationError`, with the offending `F_HZ`, zero or none supplied
  (R130, U2). Safe (log entry 9). -/
  | calibrationError (fHz : Option Nat)
  /-- Raised by CALIBRATE when a parameter other than the frequency breaks a constraint of 00_scope.md R2, R4, R5
  or R6. Safe (log entry 10). -/
  | parametersOutsideSpec
  /-- Raised by CALIBRATE: "A configuration whose values do not fit `TICK_W` bits is refused at elaboration like
  `F_HZ = 0`" (R73). Safe (log entry 10). -/
  | profileOutOfRange
  deriving DecidableEq, Repr

/-- What the latest value-returning operation returned to its caller. The model's own (log entry 5). -/
inductive Ret where
  /-- no such operation has run -/
  | nothing
  /-- READ returned `(buffer snapshot, was_dirty)` (R120) -/
  | snapshot (bytes : List Byte) (wasDirty : Bool)
  /-- CLASSIFY, as an operation of its own, returned a symbol (R96) -/
  | symbol (sym : Symbol)
  deriving DecidableEq, Repr

/-- The record `S` of 10_state.md (`lt` to `dirty`), the configuration (`cfg`, `profile`), and the model's own
`inputs` and `ret`. -/
structure State where
  /-- `lt[0..1]`: tick of the latest transition into each level (R10) -/
  lt : PerLevel
  /-- `ld[0..1]`: duration of the latest completed pulse at each level (R11) -/
  ld : PerLevel
  /-- `frame[0..N-1]`: the working frame buffer (R13) -/
  frame : Memory
  /-- `pub[0..N-1]`: the published copy (R18) -/
  pub : Memory
  /-- `next_byte_index`, 0..N (R14, R15) -/
  nbyte : Nat
  /-- `next_bit_index`, 0..7 (R14) -/
  nbit : BitVec 3
  /-- the DirtyFlag (R16) -/
  dirty : Bool
  /-- the parameters (00_scope.md R2 to R6); no operation changes them -/
  cfg : Config
  /-- the CalibrationProfile `P` (R20); none until CALIBRATE has succeeded (R130, R153) -/
  profile : Option CalibrationProfile
  /-- what the environment presents at the coming clock edges, oldest first (R46; the model's own, log entry 1) -/
  inputs : List PortSample
  /-- what the latest READ or CLASSIFY returned (the model's own, log entry 5) -/
  ret : Ret
  deriving DecidableEq, Repr

/-- The state after RESET (R23, R150) of a decoder that has been calibrated (R151, R153). `cfg` is a DESIGN CHOICE
(log entry 3, unsafe); `inputs` and `ret` are the model's own (log entries 1 and 5). -/
def State.reset : State where
  lt := ⟨0, 0⟩
  ld := ⟨0, 0⟩
  frame := []
  pub := []
  nbyte := 0
  nbit := 0
  dirty := false
  cfg := Config.standard
  profile := some (profileFor Config.standard 16000000)
  inputs := []
  ret := .nothing

end Sys2Proof.Machine
end

