-- ==== Sys2Proof/Machine/Flags.lean ====
section
/-! DEFINITION. The one flag, `dirty` (10_state.md R16). There are no condition codes. -/

namespace Sys2Proof.Machine

/-- `dirty <- 1`: a bit has been written (R109). Setting a set flag leaves it set. -/
def State.setDirty (s : State) : State := { s with dirty := true }

/-- `dirty <- 0`: READ (R120). -/
def State.clearDirty (s : State) : State := { s with dirty := false }

end Sys2Proof.Machine
end

