-- ==== Sys2Proof/Machine/Operands.lean ====
section
/-! DEFINITION. The operands of the operations (30_encoding.md R55) and window membership (42_classifier.md R95). -/

namespace Sys2Proof

/-- `¬l` is `1 - l` (00_scope.md, notation). -/
def Level.other : Level → Level
  | .low => .high
  | .high => .low

/-- Read of a register array at index `l` (R8). -/
def PerLevel.get (r : PerLevel) : Level → Nat
  | .low => r.low
  | .high => r.high

/-- Write of a register array at index `l` (R8). -/
def PerLevel.set (r : PerLevel) (l : Level) (t : Nat) : PerLevel :=
  match l with
  | .low => { r with low := t }
  | .high => { r with high := t }

/-- `zext_8(value)` (R55 d). -/
def zext8 (value : Bool) : Byte := if value then 1 else 0

/-- R95: `w.min <= d && d <= w.max`. -/
def inWindow (d : Nat) (w : TimingWindow) : Bool := decide (w.min ≤ d) && decide (d ≤ w.max)

namespace Machine

/-- R81: the duration that a transition into level `v` at tick `t` finalises, `t - lt[¬v]`; exact under the
precondition of R82, which `State.tickInOrder` checks first. -/
def State.finishedPulse (v : Level) (t : Nat) (s : State) : Nat := t - s.lt.get v.other

/-- R82: `t` is not below the tick of any earlier transition since the last RESET. The latest of those ticks is the
greater of `lt[0]` and `lt[1]` (R10), so no further register is needed (DEDUCED, log entry 7). -/
def State.tickInOrder (t : Nat) (s : State) : Bool := decide (s.lt.low ≤ t) && decide (s.lt.high ≤ t)

end Machine

end Sys2Proof
end

