-- ==== Sys2Proof/Machine/Ops.lean ====
section
/-! DEFINITION. The shared operations over the frame buffer and the registers: byte access, PubCopy, CLASSIFY,
PUSH_BIT, RESET_CURSOR, the steps of `on_transition`, READ, RESET, and the one exception. -/

namespace Sys2Proof.Machine

/-- The outcome of an operation. -/
abbrev Result := Host.Outcome State Fault Refusal

/-! ## The frame buffer as a list of bytes that differ from `FRAME_INIT` (20_memory.md R30) -/

/-- The listed byte at an address. -/
def Memory.lookup (m : Memory) (a : Nat) : Option Byte :=
  match m with
  | [] => none
  | (x, b) :: rest => if x = a then some b else Memory.lookup rest a

/-- `MemRead(a, 1)`, `0 <= a < N`. No access at or past `N` happens (R34): PUSH_BIT tests first. -/
def Memory.read (c : Config) (m : Memory) (a : Nat) : Byte := (m.lookup a).getD (c.initByte a)

/-- Lists byte `b` at address `a`, keeping the addresses rising. -/
def Memory.put (a : Nat) (b : Byte) (m : Memory) : Memory :=
  match m with
  | [] => [(a, b)]
  | (x, v) :: rest =>
    if a < x then (a, b) :: (x, v) :: rest
    else if a = x then (a, b) :: rest
    else (x, v) :: Memory.put a b rest

/-- Unlists address `a`. -/
def Memory.erase (a : Nat) (m : Memory) : Memory :=
  match m with
  | [] => []
  | (x, v) :: rest => if a = x then rest else (x, v) :: Memory.erase a rest

/-- `MemWrite(a, 1, b)`, `0 <= a < N`; writing the byte an unlisted address reads as removes the entry. -/
def Memory.write (c : Config) (m : Memory) (a : Nat) (b : Byte) : Memory :=
  if b = c.initByte a then m.erase a else m.put a b

/-- The canonical form from address `lo` on. -/
def Memory.wellFormedFrom (c : Config) (lo : Nat) (m : Memory) : Bool :=
  match m with
  | [] => true
  | (x, b) :: rest =>
    decide (lo ≤ x) && decide (x < c.frameBytes) && decide (b ≠ c.initByte x)
      && Memory.wellFormedFrom c (x + 1) rest

/-- The canonical form: addresses strictly rising and below `N`, no entry equal to what an unlisted address reads
as. -/
def Memory.wellFormed (c : Config) (m : Memory) : Bool := m.wellFormedFrom c 0

/-- All `N` bytes in ascending address order (R32, R61). -/
def Memory.bytes (c : Config) (m : Memory) : List Byte := (List.range c.frameBytes).map (m.read c)

/-- `frame[a]`. -/
def State.frameByte (s : State) (a : Nat) : Byte := s.frame.read s.cfg a

/-- `pub[a]`. -/
def State.pubByte (s : State) (a : Nat) : Byte := s.pub.read s.cfg a

/-- `PubCopy()`: `pub[i] <- frame[i]` for every `i`, one atomic action (R37). -/
def State.pubCopy (s : State) : State := { s with pub := s.frame }

/-! ## CLASSIFY (42_classifier.md R96) -/

/-- The four checks in their normative order a, b, c, d (R96, R101). -/
def classify (lowDur highDur : Nat) (P : CalibrationProfile) : Symbol :=
  if inWindow lowDur P.zero.low && inWindow highDur P.zero.high then .bit0
  else if inWindow lowDur P.one.low && inWindow highDur P.one.high then .bit1
  else if P.resetThreshold ≤ lowDur then .frameReset
  else .noSym

/-! ## The Bit Assembler (43_bit_assembler.md) -/

/-- R107: `((b << 1) mod 256) | value`. -/
def shiftIn (b : Byte) (value : Bool) : Byte := (b <<< 1) ||| zext8 value

/-- R107: the byte update of `frame[nbyte]`. -/
def State.writeBit (value : Bool) (s : State) : State :=
  { s with frame := s.frame.write s.cfg s.nbyte (shiftIn (s.frameByte s.nbyte) value) }

/-- R108: `nbit = 7` rolls to `(nbyte + 1, 0)`; the value 8 is never stored. -/
def State.advanceCursor (s : State) : State :=
  if s.nbit = 7 then { s with nbyte := s.nbyte + 1, nbit := 0 } else { s with nbit := s.nbit + 1 }

/-- R106: the full test. -/
def State.full (s : State) : Bool := decide (s.cfg.frameBytes ≤ s.nbyte)

/-- PUSH_BIT (R105): nothing when the buffer is full; else byte update, cursor advance, publication and flag. -/
def State.pushBit (value : Bool) (s : State) : State :=
  if s.full then s else (s.writeBit value).advanceCursor.pubCopy.setDirty

/-- RESET_CURSOR (R110, R111): the cursor and nothing else. -/
def State.resetCursor (s : State) : State := { s with nbyte := 0, nbit := 0 }

/-! ## The Transition Event Handler (41_transition_handler.md) -/

/-- Step 1 (R81): `ld[¬v] <- t - lt[¬v]`, `lt[v] <- t`. -/
def State.stamp (v : Level) (t : Nat) (s : State) : State :=
  { s with ld := s.ld.set v.other (s.finishedPulse v t), lt := s.lt.set v t }

/-- Step 3 (R86): "exactly one of {write one bit, reset cursor, no-op}". -/
def State.dispatch (sym : Symbol) (s : State) : State :=
  match sym with
  | .bit0 => s.pushBit false
  | .bit1 => s.pushBit true
  | .frameReset => s.resetCursor
  | .noSym => s

/-- Steps 2 and 3 (R83, R86) on the state that step 1 left: classification only on a transition into HIGH. -/
def State.gate (P : CalibrationProfile) (v : Level) (s : State) : State :=
  match v with
  | .low => s
  | .high => s.dispatch (classify s.ld.low s.ld.high P)

/-- `on_transition(level, t)` (R80); a tick that goes backwards is refused (R82, U1). -/
def State.onTransition (P : CalibrationProfile) (v : Level) (t : Nat) (s : State) : Result :=
  if s.tickInOrder t then .next ((s.stamp v t).gate P v) else .refused .tickDecreased

/-! ## Frame Publication (44_frame_publication.md) -/

/-- `peek(S) = (pub, dirty)` (R121), the pair on the outputs `frame_o`, `dirty_o` (R52). -/
def State.peek (s : State) : List Byte × Bool := (s.pub.bytes s.cfg, s.dirty)

/-- The bus `frame_o`, byte `i` at bits `[8*i+7 : 8*i]` (R45, R61), as the number its `8*N` bits spell. -/
def frameBus : List Byte → Nat
  | [] => 0
  | b :: rest => b.toNat + 2 ^ 8 * frameBus rest

/-- The output `frame_o` (R52). -/
def State.frameO (s : State) : BitVec (8 * s.cfg.frameBytes) := BitVec.ofNat _ (frameBus (s.pub.bytes s.cfg))

/-- The output `dirty_o` (R52). -/
def State.dirtyO (s : State) : Bool := s.dirty

/-- READ (R120): the result is `(pub, dirty)` before the step, and `dirty <- 0`, in one step. -/
def State.readAndClear (s : State) : State := { s.clearDirty with ret := .snapshot s.peek.1 s.peek.2 }

/-! ## RESET (70_reset_and_hazards.md R150) -/

/-- Every register at its value of R23; profile and parameters untouched. -/
def State.hardReset (s : State) : State :=
  { s with
    lt := ⟨0, 0⟩, ld := ⟨0, 0⟩, nbyte := 0, nbit := 0, dirty := false, frame := [], pub := [] }

/-! ## The decoder instance and its one exception (60_exceptions.md) -/

/-- Every operation but CALIBRATE is an operation of a decoder instance, and an instance exists only with its
profile (R130, R153). -/
def State.onDecoder (s : State) (k : CalibrationProfile → Result) : Result :=
  match s.profile with
  | some P => k P
  | none => .refused .noDecoder

/-- Taking OWD's one exception (R130, R137): nothing is saved, no mode changes, control goes nowhere, and there is
no return (R138). It leaves no machine, so there is no next state (U2). -/
def raiseCalibrationError (fHz : Option Nat) : Except Refusal CalibrationProfile := .error (.calibrationError fHz)

end Sys2Proof.Machine
end

