-- ==== Sys2Proof/Machine/Control.lean ====
section
/-! DEFINITION. RESET (70_reset_and_hazards.md) and IDLE (30_encoding.md). -/

namespace Sys2Proof.Machine

/-- RESET (R150). -/
def execReset (s : State) : Result := s.onDecoder fun _ => .next s.hardReset

/-- IDLE (R53): `S' = S`. -/
def execIdle (s : State) : Result := s.onDecoder fun _ => .next s

end Sys2Proof.Machine
end

