-- ==== Sys2Proof/Machine/Elaboration.lean ====
section
/-! DEFINITION. CALIBRATE, the operation of format ELAB (40_calibration.md). -/

namespace Sys2Proof.Machine

/-- `calibrate(freq) -> CalibrationProfile` (R65): a zero or missing frequency is rejected before anything else
(R69, R130); parameters outside 00_scope.md's constraints and profiles that do not fit `TICK_W` bits are refused
(R73; log entry 10). It reads no state (R68). -/
def calibrate (c : Config) : Except Refusal CalibrationProfile :=
  match c.fHz with
  | none => raiseCalibrationError none
  | some 0 => raiseCalibrationError (some 0)
  | some (f + 1) =>
    if c.withinSpec then
      if (profileFor c (f + 1)).fits c.tickW then .ok (profileFor c (f + 1)) else .error .profileOutOfRange
    else .error .parametersOutsideSpec

/-- CALIBRATE (R65): the profile becomes the instance's; it writes no state of 10_state.md (R68). -/
def execCalibrate (s : State) : Result :=
  match calibrate s.cfg with
  | .ok P => .next { s with profile := some P }
  | .error r => .refused r

end Sys2Proof.Machine
end

