-- ==== Sys2Proof/Machine/Internal.lean ====
section
/-! DEFINITION. The internal operations CLASSIFY, PUSH_BIT, RESET_CURSOR (format INT, R60), each as one operation. -/

namespace Sys2Proof.Machine

/-- CLASSIFY (R96) of its operands `(ld[LOW], ld[HIGH], P)` (R55 d): a pure function whose result goes to its caller
and which writes no state. -/
def execClassify (s : State) : Result :=
  s.onDecoder fun P => .next { s with ret := .symbol (classify s.ld.low s.ld.high P) }

/-- PUSH_BIT(value) (R105). -/
def execPushBit (value : Bool) (s : State) : Result := s.onDecoder fun _ => .next (s.pushBit value)

/-- RESET_CURSOR (R110). -/
def execResetCursor (s : State) : Result := s.onDecoder fun _ => .next s.resetCursor

end Sys2Proof.Machine
end

