-- ==== Sys2Proof/Machine/Publication.lean ====
section
/-! DEFINITION. READ (44_frame_publication.md) and the same-cycle commands READ_FALL, READ_RISE (30_encoding.md). -/

namespace Sys2Proof.Machine

/-- READ (R120). -/
def execRead (s : State) : Result := s.onDecoder fun _ => .next s.readAndClear

/-- READ_FALL (R49): `S1 = step(S, READ); S' = step(S1, FALL(tick))`; the read result is taken from `S`. -/
def execReadFall (t : Nat) (s : State) : Result := s.onDecoder fun P => s.readAndClear.onTransition P .low t

/-- READ_RISE (R50): `S1 = step(S, READ); S' = step(S1, RISE(tick))`; the read result is taken from `S`. -/
def execReadRise (t : Nat) (s : State) : Result := s.onDecoder fun P => s.readAndClear.onTransition P .high t

end Sys2Proof.Machine
end

