-- ==== Sys2Proof/Machine/Symbols.lean ====
section
/-! DEFINITION. The four symbol outcomes as operations: each is the action its rule gives (42_classifier.md). -/

namespace Sys2Proof.Machine

/-- NONE (R100): "Action: nothing". -/
def execSymNone (s : State) : Result := s.onDecoder fun _ => .next (s.dispatch .noSym)

/-- FRAME_RESET (R99): "Action: `RESET_CURSOR()`". -/
def execSymFrameReset (s : State) : Result := s.onDecoder fun _ => .next (s.dispatch .frameReset)

/-- BIT_0 (R97): "Action: `PUSH_BIT(0)`". -/
def execSymBit0 (s : State) : Result := s.onDecoder fun _ => .next (s.dispatch .bit0)

/-- BIT_1 (R98): "Action: `PUSH_BIT(1)`". -/
def execSymBit1 (s : State) : Result := s.onDecoder fun _ => .next (s.dispatch .bit1)

end Sys2Proof.Machine
end

