-- ==== Sys2Proof/Machine/Transition.lean ====
section
/-! DEFINITION. FALL and RISE (41_transition_handler.md). -/

namespace Sys2Proof.Machine

/-- FALL(t) (R84): `on_transition(level = 0, tick = t)`. -/
def execFall (t : Nat) (s : State) : Result := s.onDecoder fun P => s.onTransition P .low t

/-- RISE(t) (R85): `on_transition(level = 1, tick = t)`. -/
def execRise (t : Nat) (s : State) : Result := s.onDecoder fun P => s.onTransition P .high t

end Sys2Proof.Machine
end

