-- ==== Sys2Proof/Syntax.lean ====
section
/-! DEFINITION. The operations of OWD, one constructor for each row of spec/opcode_table.json. OWD has no instruction
stream (R17): the seven CMD operations are the port commands of one clock cycle, and the SYM, ELAB and INT
operations are those no run-time word selects (R54, R60; log entry 11). -/

namespace Sys2Proof

inductive Instr where
  /-- CMD `1---`, RESET (R150) -/
  | reset
  /-- CMD `000-`, IDLE (R53) -/
  | idle
  /-- CMD `0010`, FALL(t) = `on_transition(0, t)` (R84) -/
  | fall (t : Nat)
  /-- CMD `0011`, RISE(t) = `on_transition(1, t)` (R85) -/
  | rise (t : Nat)
  /-- CMD `010-`, READ (R120) -/
  | read
  /-- CMD `0110`, READ then FALL(t) (R49) -/
  | readFall (t : Nat)
  /-- CMD `0111`, READ then RISE(t) (R50) -/
  | readRise (t : Nat)
  /-- SYM `00`, NONE (R100) -/
  | symNone
  /-- SYM `01`, FRAME_RESET (R99) -/
  | symFrameReset
  /-- SYM `10`, BIT_0 (R97) -/
  | symBit0
  /-- SYM `11`, BIT_1 (R98) -/
  | symBit1
  /-- ELAB, CALIBRATE (R65) -/
  | calibrate
  /-- INT, CLASSIFY of `(ld[LOW], ld[HIGH], P)` (R96, R55 d) -/
  | classify
  /-- INT, PUSH_BIT(value) (R105) -/
  | pushBit (value : Bool)
  /-- INT, RESET_CURSOR (R110) -/
  | resetCursor
  deriving DecidableEq, Repr

end Sys2Proof
end

