-- ==== Sys2Proof/Machine/Dispatch.lean ====
section
/-! DEFINITION. The one match over the operations. -/

namespace Sys2Proof.Machine

def exec (i : Instr) (s : State) : Host.Outcome State Fault Refusal :=
  match i with
  | .reset => Sys2Proof.Machine.execReset s
  | .idle => Sys2Proof.Machine.execIdle s
  | .fall t => Sys2Proof.Machine.execFall t s
  | .rise t => Sys2Proof.Machine.execRise t s
  | .read => Sys2Proof.Machine.execRead s
  | .readFall t => Sys2Proof.Machine.execReadFall t s
  | .readRise t => Sys2Proof.Machine.execReadRise t s
  | .symNone => Sys2Proof.Machine.execSymNone s
  | .symFrameReset => Sys2Proof.Machine.execSymFrameReset s
  | .symBit0 => Sys2Proof.Machine.execSymBit0 s
  | .symBit1 => Sys2Proof.Machine.execSymBit1 s
  | .calibrate => Sys2Proof.Machine.execCalibrate s
  | .classify => Sys2Proof.Machine.execClassify s
  | .pushBit value => Sys2Proof.Machine.execPushBit value s
  | .resetCursor => Sys2Proof.Machine.execResetCursor s

end Sys2Proof.Machine
end

