-- ==== Sys2Proof/WellFormed.lean ====
section
/-! DEFINITION. When an operation is one the hardware can be given: its tick operand is a `TICK_W`-bit value
(R5, R55 b). No other operand of OWD can be out of range (R56). -/

namespace Sys2Proof

/-- The tick operand of a transition is a `TICK_W`-bit unsigned value (R55 b). -/
def tickFits (tickW : Nat) (t : Nat) : Bool := decide (t < 2 ^ tickW)

def Instr.wellFormed (tickW : Nat) : Instr → Bool
  | .fall t => tickFits tickW t
  | .rise t => tickFits tickW t
  | .readFall t => tickFits tickW t
  | .readRise t => tickFits tickW t
  | .reset => true
  | .idle => true
  | .read => true
  | .symNone => true
  | .symFrameReset => true
  | .symBit0 => true
  | .symBit1 => true
  | .calibrate => true
  | .classify => true
  | .pushBit _ => true
  | .resetCursor => true

/-- The operation is selected by a CMD word (R47, R48); the others have no run-time word (R54, R60). -/
def Instr.isCommand : Instr → Bool
  | .reset => true
  | .idle => true
  | .fall _ => true
  | .rise _ => true
  | .read => true
  | .readFall _ => true
  | .readRise _ => true
  | .symNone => false
  | .symFrameReset => false
  | .symBit0 => false
  | .symBit1 => false
  | .calibrate => false
  | .classify => false
  | .pushBit _ => false
  | .resetCursor => false

end Sys2Proof
end

