-- ==== Sys2Proof/Decode.lean ====
section
/-! DEFINITION. Decoding of the ports into operations (30_encoding.md R47, R48), the SYM code (R54), the byte image of
a port sample (log entry 12), and the encoders written from the same tables. -/

namespace Sys2Proof

/-! ## The command word (R47, R48) -/

/-- R48: all 16 values of `cmd[3:0] = {rst, rd_req, ev_valid, ev_level}`. -/
def decodeCmd (cmd : BitVec 4) (t : Nat) : Instr :=
  let rst := cmd.getLsbD 3
  let rdReq := cmd.getLsbD 2
  let evValid := cmd.getLsbD 1
  let evLevel := cmd.getLsbD 0
  if rst then .reset
  else match rdReq, evValid, evLevel with
    | false, false, _ => .idle
    | false, true, false => .fall t
    | false, true, true => .rise t
    | true, false, _ => .read
    | true, true, false => .readFall t
    | true, true, true => .readRise t

/-- The value that a port of `TICK_W` wires carries (R45, R51). -/
def sampledTick (tickW : Nat) (p : PortSample) : Nat := p.tick % 2 ^ tickW

/-- What one clock edge decodes to (R46, R48, R51). Nothing is illegal (R56). -/
def decodePort (tickW : Nat) (p : PortSample) : Instr := decodeCmd p.cmd (sampledTick tickW p)

/-- The canonical command word of an operation (R58) with its tick operand; none for the operations of the formats
SYM, ELAB and INT, which are on no port (R54, R60). -/
def encode : Instr → Option PortSample
  | .reset => some ⟨0x8, 0⟩
  | .idle => some ⟨0x0, 0⟩
  | .fall t => some ⟨0x2, t⟩
  | .rise t => some ⟨0x3, t⟩
  | .read => some ⟨0x4, 0⟩
  | .readFall t => some ⟨0x6, t⟩
  | .readRise t => some ⟨0x7, t⟩
  | .symNone => none
  | .symFrameReset => none
  | .symBit0 => none
  | .symBit1 => none
  | .calibrate => none
  | .classify => none
  | .pushBit _ => none
  | .resetCursor => none

/-! ## The SYM code (R54) -/

def Symbol.code : Symbol → BitVec 2
  | .noSym => 0b00
  | .frameReset => 0b01
  | .bit0 => 0b10
  | .bit1 => 0b11

def decodeSym (c : BitVec 2) : Symbol :=
  match c.getLsbD 1, c.getLsbD 0 with
  | false, false => .noSym
  | false, true => .frameReset
  | true, false => .bit0
  | true, true => .bit1

/-- The operation row that a symbol stands for (R97 to R100). -/
def Symbol.instr : Symbol → Instr
  | .noSym => .symNone
  | .frameReset => .symFrameReset
  | .bit0 => .symBit0
  | .bit1 => .symBit1

/-! ## The byte image of a port sample

The spec gives the ports no byte layout. DESIGN CHOICE (log entry 12, safe): byte 0 holds the command word in bits
3..0 and zeros above; the value of `tick` follows, least significant byte first, in `ceil(TICK_W / 8)` bytes. -/

/-- `n` bytes of `v`, least significant byte first. -/
def leBytes : Nat → Nat → List Byte
  | 0, _ => []
  | n + 1, v => BitVec.ofNat 8 v :: leBytes n (v / 256)

/-- The number that bytes spell, least significant byte first. -/
def leValue : List Byte → Nat
  | [] => 0
  | b :: bs => b.toNat + 256 * leValue bs

/-- The number of bytes the image of a `TICK_W`-bit tick takes. -/
def tickBytes (tickW : Nat) : Nat := (tickW + 7) / 8

/-- Why a list of bytes is the image of no port sample. -/
inductive DecodeError where
  /-- no byte at all, so no command word -/
  | noCommandWord
  /-- a bit is set above the four bits of the command word -/
  | bitsAboveCommand
  /-- the tick's bytes are too few or too many -/
  | tickLength
  /-- the tick does not fit the `TICK_W` wires of its port -/
  | tickTooWide
  deriving DecidableEq, Repr

/-- The port sample that a byte image stands for, or why it stands for none. -/
def sampleOfBytes (tickW : Nat) : List Byte → Except DecodeError PortSample
  | [] => .error .noCommandWord
  | b :: rest =>
    if 16 ≤ b.toNat then .error .bitsAboveCommand
    else if rest.length ≠ tickBytes tickW then .error .tickLength
    else if 2 ^ tickW ≤ leValue rest then .error .tickTooWide
    else .ok ⟨BitVec.ofNat 4 b.toNat, leValue rest⟩

/-- The byte image of a port sample. -/
def bytesOfSample (tickW : Nat) (p : PortSample) : List Byte :=
  BitVec.ofNat 8 p.cmd.toNat :: leBytes (tickBytes tickW) p.tick

/-- Decoding, total on any bytes. -/
def decodeBytes (tickW : Nat) (bs : List Byte) : Except DecodeError Instr :=
  match sampleOfBytes tickW bs with
  | .ok p => .ok (decodePort tickW p)
  | .error e => .error e

/-- Encoding to bytes: none for the operations that have no run-time word. -/
def encodeBytes (tickW : Nat) (i : Instr) : Option (List Byte) :=
  match encode i with
  | some p => some (bytesOfSample tickW p)
  | none => none

/-! ## The host's view of a word -/

/-- The byte image (for `TICK_W = 64`) of an opcode-table word: bits 7..0 of `w` are the command byte and its bits
from 8 on are the tick, all zero where the table gives them none. A row of width zero (formats ELAB and INT, R60)
has no word and so no image. -/
def wordImage (nbits w : Nat) : List Byte := if nbits = 0 then [] else leBytes 9 w

/-- What the decoder reads from an opcode-table word. A decoder of port words uses the CMD rows only (R60), so a SYM
row's bits, taken as a port word, read as the command those bits are (log entry 11). -/
def decodeTableWord (nbits w : Nat) : Option Instr := (decodeBytes 64 (wordImage nbits w)).toOption

end Sys2Proof
end

