-- ==== Sys2Proof/Machine/Ports.lean ====
section
/-! DEFINITION. What one rising edge of `clk` samples (30_encoding.md R46). -/

namespace Sys2Proof.Machine

/-- The operation that the next clock edge presents: the decoded first sample, or nothing (IDLE) when the environment
presents none (R46, R53; log entry 1). -/
def State.presented (s : State) : Instr :=
  match s.inputs with
  | [] => .idle
  | p :: _ => decodePort s.cfg.tickW p

/-- The state once the edge has sampled the ports: the sample is used up. -/
def State.sampled (s : State) : State := { s with inputs := s.inputs.tail }

/-- The environment presents the sample with byte image `bs` at the next edge; an image of no sample presents
nothing. -/
def State.presentBytes (s : State) (bs : List Byte) : State :=
  match sampleOfBytes 64 bs with
  | .ok p => { s with inputs := p :: s.inputs }
  | .error _ => s

end Sys2Proof.Machine
end

