-- ==== Sys2Proof/Machine/Step.lean ====
section
/-! DEFINITION. One step of the machine: one clock cycle of the port wrapper (30_encoding.md R46). -/

namespace Sys2Proof.Machine

/-- A state without a profile is not yet elaborated: CALIBRATE comes first (R153; log entry 8). A decoder samples
its ports and carries out what they present, in that one cycle (R46). -/
def step (s : State) : Host.Outcome State Fault Refusal :=
  match s.profile with
  | none => exec .calibrate s
  | some _ => exec s.presented s.sampled

/-- The environment presents the port word `w` at the next clock edge. -/
def State.withFetchWord (s : State) (nbits w : Nat) : State := s.presentBytes (wordImage nbits w)

end Sys2Proof.Machine
end

