-- ==== Sys2Proof/Safety.lean ====
section
/-! DEFINITION. What a good state is, what the environment must keep to, and runs: the terms in which the claims
are made. -/

namespace Sys2Proof.Machine

/-- The invariant of the machine. -/
structure Inv (s : State) : Prop where
  /-- R20, R65: the profile is the one CALIBRATE computes from the configuration -/
  calibrated : ∀ P, s.profile = some P → calibrate s.cfg = .ok P
  /-- R15: `0 <= nbyte <= N` -/
  cursorInRange : s.nbyte ≤ s.cfg.frameBytes
  /-- R15: `nbyte = N` implies `nbit = 0` -/
  fullAtByteStart : s.nbyte = s.cfg.frameBytes → s.nbit = 0
  /-- the list of bytes has its canonical form -/
  frameWellFormed : s.frame.wellFormed s.cfg = true
  /-- R19: `pub[i] = frame[i]` for all `i` -/
  published : s.pub = s.frame
  /-- R10: `lt` holds `TICK_W`-bit values -/
  ltFits : s.lt.low < 2 ^ s.cfg.tickW ∧ s.lt.high < 2 ^ s.cfg.tickW
  /-- R11: `ld` holds `TICK_W`-bit values -/
  ldFits : s.ld.low < 2 ^ s.cfg.tickW ∧ s.ld.high < 2 ^ s.cfg.tickW

/-- The latest tick of a transition since the last RESET (R10, R82), 0 if there was none. -/
def State.lastTick (s : State) : Nat := max s.lt.low s.lt.high

/-- The precondition of R82 for one operation, given the latest earlier tick. -/
def tickAllowed (last : Nat) : Instr → Bool
  | .fall t => decide (last ≤ t)
  | .rise t => decide (last ≤ t)
  | .readFall t => decide (last ≤ t)
  | .readRise t => decide (last ≤ t)
  | .reset => true
  | .idle => true
  | .read => true
  | .symNone => true
  | .symFrameReset => true
  | .symBit0 => true
  | .symBit1 => true
  | .calibrate => true
  | .classify => true
  | .pushBit _ => true
  | .resetCursor => true

/-- The latest tick after an operation. -/
def tickAfter (last : Nat) : Instr → Nat
  | .fall t => t
  | .rise t => t
  | .readFall t => t
  | .readRise t => t
  | .reset => 0
  | .idle => last
  | .read => last
  | .symNone => last
  | .symFrameReset => last
  | .symBit0 => last
  | .symBit1 => last
  | .calibrate => last
  | .classify => last
  | .pushBit _ => last
  | .resetCursor => last

/-- R154 (a): ticks of successive transition events since the last RESET never decrease. -/
def ticksInOrder (tickW : Nat) (last : Nat) (ps : List PortSample) : Bool :=
  match ps with
  | [] => true
  | p :: rest =>
    tickAllowed last (decodePort tickW p) && ticksInOrder tickW (tickAfter last (decodePort tickW p)) rest

/-- The environment keeps R154 (a) with what it will present to `s`. -/
def State.environmentOk (s : State) : Bool := ticksInOrder s.cfg.tickW s.lastTick s.inputs

/-- Operations carried out one after the other (R38), stopping at the first that gives no next state. -/
def execAll (is : List Instr) (s : State) : Result :=
  match is with
  | [] => .next s
  | i :: rest =>
    match exec i s with
    | .next t => execAll rest t
    | .fault r => .fault r
    | .refused r => .refused r

/-- A run of the machine from `s` never stops. -/
def NeverStops (s : State) : Prop := ∀ k, ∃ t, Sys2Proof.core.run k s = .next t

/-- R85, R106: the RISE at tick `t` writes a bit. -/
def State.riseWritesBit (P : CalibrationProfile) (t : Nat) (s : State) : Bool :=
  (classify (t - s.lt.low) s.ld.high P).code.getLsbD 1 && !s.full

/-! ## What an operation does to the buffer, the cursor and the flag -/

/-- The operation writes a bit: one that pushes a bit and finds room (R105, R106), or a RISE whose symbol is a bit
(R86). -/
def State.writesBit (s : State) : Instr → Bool
  | .rise t => s.profile.any fun P => s.riseWritesBit P t
  | .readRise t => s.profile.any fun P => s.riseWritesBit P t
  | .symBit0 => !s.full
  | .symBit1 => !s.full
  | .pushBit _ => !s.full
  | .reset => false
  | .idle => false
  | .fall _ => false
  | .read => false
  | .readFall _ => false
  | .symNone => false
  | .symFrameReset => false
  | .calibrate => false
  | .classify => false
  | .resetCursor => false

/-- R85: the RISE at tick `t` is a FRAME_RESET. -/
def State.riseResetsCursor (P : CalibrationProfile) (t : Nat) (s : State) : Bool :=
  decide (classify (t - s.lt.low) s.ld.high P = .frameReset)

/-- The operation moves the cursor to `(0,0)`: RESET (R150), RESET_CURSOR (R110), FRAME_RESET (R99), or a RISE whose
symbol that is (R86). -/
def State.resetsCursor (s : State) : Instr → Bool
  | .rise t => s.profile.any fun P => s.riseResetsCursor P t
  | .readRise t => s.profile.any fun P => s.riseResetsCursor P t
  | .reset => true
  | .resetCursor => true
  | .symFrameReset => true
  | .idle => false
  | .fall _ => false
  | .read => false
  | .readFall _ => false
  | .symNone => false
  | .symBit0 => false
  | .symBit1 => false
  | .calibrate => false
  | .classify => false
  | .pushBit _ => false

/-- The operation clears `dirty`: READ, alone or before a transition (R120, R49, R50), and RESET (R150). -/
def clearsFlag : Instr → Bool
  | .reset => true
  | .read => true
  | .readFall _ => true
  | .readRise _ => true
  | .idle => false
  | .fall _ => false
  | .rise _ => false
  | .symNone => false
  | .symFrameReset => false
  | .symBit0 => false
  | .symBit1 => false
  | .calibrate => false
  | .classify => false
  | .pushBit _ => false
  | .resetCursor => false

/-! ## The pseudo-operations of 30_encoding.md R59 -/

/-- `HL h, l`: one high pulse of `h` ticks, one low pulse of `l` ticks, after the transition at tick `t`. -/
def pulsePair (h l t : Nat) : List Instr := [.fall (t + h), .rise (t + h + l)]

/-- The high pulse of `BIT0` or `BIT1`. -/
def nominalHigh (c : Config) (f : Nat) (value : Bool) : Nat := ticksFloor f (if value then c.t1hNs else c.t0hNs)

/-- The low pulse of `BIT0` or `BIT1`. -/
def nominalLow (c : Config) (f : Nat) (value : Bool) : Nat := ticksFloor f (if value then c.t1lNs else c.t0lNs)

/-- `BIT0` or `BIT1` for each of `values` in turn, after the transition at tick `t`. -/
def sendBits (c : Config) (f : Nat) (t : Nat) (values : List Bool) : List Instr :=
  match values with
  | [] => []
  | v :: rest =>
    pulsePair (nominalHigh c f v) (nominalLow c f v) t
      ++ sendBits c f (t + nominalHigh c f v + nominalLow c f v) rest

/-- The bits of a byte, most significant first (R31). -/
def bitsOfByte (b : Byte) : List Bool :=
  [b.getLsbD 7, b.getLsbD 6, b.getLsbD 5, b.getLsbD 4, b.getLsbD 3, b.getLsbD 2, b.getLsbD 1, b.getLsbD 0]

end Sys2Proof.Machine
end

