-- ==== Sys2Proof/Certificates/Slice0/Obligations.lean ====
section
/-! DEFINITION. The statements about OWD, for the provers. Each docstring names the rules a statement formalises.
`s.profile = some P` says that the decoder has been built with the profile `P` (R130, R153); the parameters are
`s.cfg`, so a statement about every `s` is about every configuration. -/

open Sys2Proof Sys2Proof.Machine

/-! ## Encoding -/

/-- R48: all 16 values of the command word, whatever stands on port `tick`, and the events each applies, in order:
READ_FALL is READ then FALL, READ_RISE is READ then RISE. -/
def Obligations.CommandWordsDecodeAsTabled : Prop :=
  (∀ (w t : Nat) (c : BitVec 4), 8 ≤ c.toNat → decodePort w ⟨c, t⟩ = .reset) ∧
  (∀ w t : Nat,
    decodePort w ⟨0b0000, t⟩ = .idle ∧ decodePort w ⟨0b0001, t⟩ = .idle ∧
    decodePort w ⟨0b0010, t⟩ = .fall (t % 2 ^ w) ∧ decodePort w ⟨0b0011, t⟩ = .rise (t % 2 ^ w) ∧
    decodePort w ⟨0b0100, t⟩ = .read ∧ decodePort w ⟨0b0101, t⟩ = .read ∧
    decodePort w ⟨0b0110, t⟩ = .readFall (t % 2 ^ w) ∧ decodePort w ⟨0b0111, t⟩ = .readRise (t % 2 ^ w)) ∧
  (∀ (t : Nat) (s : State),
    exec (.readFall t) s = execAll [.read, .fall t] s ∧ exec (.readRise t) s = execAll [.read, .rise t] s)

/-- Decode and encode agree, down to the bytes: every well-formed command, with every tick that its port admits,
decodes back to itself, and the operations of the formats SYM, ELAB and INT have no word (R54, R60). The byte image is
the model's layout (log entry 12). -/
def Obligations.BytesOfACommandDecodeToIt : Prop :=
  ∀ (w : Nat) (i : Instr),
    (i.isCommand = true → i.wellFormed w = true →
      ∃ bs, encodeBytes w i = some bs ∧ decodeBytes w bs = .ok i) ∧
    (i.isCommand = false → encodeBytes w i = none)

/-- Whatever bytes decode, decode to a well-formed command, and to the same one as its canonical bytes. The byte image
is the model's layout (log entry 12). -/
def Obligations.DecodedBytesAreAWellFormedCommand : Prop :=
  ∀ (w : Nat) (bs : List Byte) (i : Instr), decodeBytes w bs = .ok i →
    i.isCommand = true ∧ i.wellFormed w = true ∧
      ∃ bs', encodeBytes w i = some bs' ∧ decodeBytes w bs' = .ok i

/-- R56: the ignored bits are `ev_level` when `ev_valid = 0` and everything when `rst = 1`; every command word is an
operation that its word selects, and all four SYM codes are symbols. -/
def Obligations.IgnoredBitsChangeNothing : Prop :=
  (∀ (w : Nat) (p q : PortSample), p.cmd.getLsbD 3 = true → q.cmd.getLsbD 3 = true →
    decodePort w p = decodePort w q) ∧
  (∀ (w : Nat) (p q : PortSample),
    p.cmd.getLsbD 3 = q.cmd.getLsbD 3 → p.cmd.getLsbD 2 = q.cmd.getLsbD 2 →
    p.cmd.getLsbD 1 = false → q.cmd.getLsbD 1 = false → decodePort w p = decodePort w q) ∧
  (∀ (w : Nat) (p : PortSample), (decodePort w p).isCommand = true ∧ (decodePort w p).wellFormed w = true) ∧
  (∀ c : BitVec 2, (decodeSym c).code = c)

/-- R54: the 2-bit SYM code, on no port; `sym[1]` is "a bit is to be written", and then `sym[0]` is its value. -/
def Obligations.SymbolCodeSaysWhatToDo : Prop :=
  Symbol.noSym.code = 0b00 ∧ Symbol.frameReset.code = 0b01 ∧ Symbol.bit0.code = 0b10 ∧ Symbol.bit1.code = 0b11 ∧
  ∀ sym : Symbol,
    decodeSym sym.code = sym ∧ encode sym.instr = none ∧
    (sym.code.getLsbD 1 = true →
      ∀ s : State, exec sym.instr s = exec (.pushBit (sym.code.getLsbD 0)) s) ∧
    (sym.code.getLsbD 1 = false → ∀ s t : State, exec sym.instr s = .next t → t.frame = s.frame ∧ t.pub = s.pub)

/-! ## Calibration -/

/-- R65: CALIBRATE has no word; the profile that it computes, its only effect, and its only exception. The parameters
are within the constraints of R2, R4 to R6 and the nine values fit `TICK_W` bits (R73). -/
def Obligations.CalibrateComputesTheProfile : Prop :=
  encode .calibrate = none ∧
  (∀ (s : State) (f : Nat), s.cfg.fHz = some f → 1 ≤ f → s.cfg.withinSpec = true →
    (profileFor s.cfg f).fits s.cfg.tickW = true →
    exec .calibrate s = .next { s with
      profile := some
        { zero :=
            { low := ⟨(s.cfg.t0lNs - s.cfg.tolNs) * f / 1000000000 + 1, (s.cfg.t0lNs + s.cfg.tolNs) * f / 1000000000⟩
              high := ⟨(s.cfg.t0hNs - s.cfg.tolNs) * f / 1000000000 + 1, (s.cfg.t0hNs + s.cfg.tolNs) * f / 1000000000⟩ }
          one :=
            { low := ⟨(s.cfg.t1lNs - s.cfg.tolNs) * f / 1000000000 + 1, (s.cfg.t1lNs + s.cfg.tolNs) * f / 1000000000⟩
              high := ⟨(s.cfg.t1hNs - s.cfg.tolNs) * f / 1000000000 + 1, (s.cfg.t1hNs + s.cfg.tolNs) * f / 1000000000⟩ }
          resetThreshold := s.cfg.tresetNs * f / 1000000000 + 1 } }) ∧
  (∀ (s : State) (f : Nat), exec .calibrate s = .refused (.calibrationError (some f)) ↔
    s.cfg.fHz = some f ∧ f = 0)

/-- R66: `ticks_floor(x)` is the floor of the exact rational `x / cycle_ns` with `cycle_ns = 1000000000 / F_HZ`, which
is `(x * F_HZ) div 1000000000`. -/
def Obligations.TickConversionIsExact : Prop :=
  ∀ f x : Nat, 1 ≤ f →
    (ticksFloor f x : ℤ) = ⌊(x : ℚ) / (1000000000 / (f : ℚ))⌋ ∧ ticksFloor f x = x * f / 1000000000

/-- R67: the reset threshold is a lower bound with no upper limit, and a low of `d` ticks reaches it exactly when it
lasts longer than `TRESET_NS`; exactly `TRESET_NS` does not. -/
def Obligations.ResetThresholdIsStrict : Prop :=
  ∀ (c : Config) (P : CalibrationProfile), calibrate c = .ok P →
    ∃ f, c.fHz = some f ∧ P.resetThreshold = ticksFloor f c.tresetNs + 1 ∧
      ∀ d : Nat,
        (P.resetThreshold ≤ d ↔ c.tresetNs * f < d * 1000000000) ∧
        (d * 1000000000 = c.tresetNs * f → ¬ P.resetThreshold ≤ d)

/-- R130: a zero or missing frequency raises `CalibrationError`, with the offending value; nothing else raises it; and
without a profile no event can be applied. -/
def Obligations.CalibrationErrorLeavesNoMachine : Prop :=
  (∀ (i : Instr) (s : State) (f : Option Nat),
    exec i s = .refused (.calibrationError f) ↔
      i = .calibrate ∧ s.cfg.fHz = f ∧ (f = none ∨ f = some 0)) ∧
  (∀ (i : Instr) (s : State), s.profile = none → i ≠ .calibrate → exec i s = .refused .noDecoder)

/-- R73: a configuration with a value that does not fit `TICK_W` bits is refused at elaboration; with the default
constants the largest value is the threshold, at most `F_HZ div 20000 + 1`, and with `TICK_W = 64` every `1 <= F_HZ < 2^64` is
calibrated. -/
def Obligations.ProfileMustFitTheTickWidth : Prop :=
  (∀ (s : State) (f : Nat), s.cfg.fHz = some f → 1 ≤ f → s.cfg.withinSpec = true →
    (exec .calibrate s = .refused .profileOutOfRange ↔
      ∃ v ∈ (profileFor s.cfg f).values, 2 ^ s.cfg.tickW ≤ v)) ∧
  (∀ (s : State) (rows cols f : Nat), 1 ≤ rows → 1 ≤ cols → 1 ≤ f → f < 2 ^ 64 →
    s.cfg = Config.withDefaults rows cols (some f) →
    exec .calibrate s = .next { s with profile := some (profileFor s.cfg f) } ∧
    (∀ v ∈ (profileFor s.cfg f).values, v ≤ (profileFor s.cfg f).resetThreshold) ∧
    (profileFor s.cfg f).resetThreshold ≤ f / 20000 + 1)

/-- R68: CALIBRATE is a pure function of the parameters: the same configuration gives the same profile, nothing but
the profile changes, and calibrating again changes nothing. -/
def Obligations.CalibrationIsPure : Prop :=
  ∀ s t : State, exec .calibrate s = .next t →
    t = { s with profile := t.profile } ∧ exec .calibrate t = .next t ∧
    ∀ s' : State, s'.cfg = s.cfg → exec .calibrate s' = .next { s' with profile := t.profile }

/-- R70 and R104: every calibrated minimum and the threshold are at least 1, so a duration of 0 ticks is in no window
and is no reset. -/
def Obligations.ZeroDurationMatchesNothing : Prop :=
  ∀ (c : Config) (P : CalibrationProfile), calibrate c = .ok P →
    1 ≤ P.zero.low.min ∧ 1 ≤ P.zero.high.min ∧ 1 ≤ P.one.low.min ∧ 1 ≤ P.one.high.min ∧ 1 ≤ P.resetThreshold ∧
    inWindow 0 P.zero.low = false ∧ inWindow 0 P.zero.high = false ∧
    inWindow 0 P.one.low = false ∧ inWindow 0 P.one.high = false ∧
    (∀ h : Nat, classify 0 h P = .noSym) ∧
    (∀ l : Nat, classify l 0 P = if P.resetThreshold ≤ l then .frameReset else .noSym)

/-- R71: no window is empty when `2 * TOL_NS * F_HZ >= 1000000000`; with the default constants the largest frequency
with an empty window is 3157894, and calibration accepts a profile with empty windows, as at 1 MHz. -/
def Obligations.WindowsAreNonEmptyAtHighFrequency : Prop :=
  (∀ (c : Config) (f : Nat), c.withinSpec = true → 1000000000 ≤ 2 * c.tolNs * f →
    (profileFor c f).zero.low.min ≤ (profileFor c f).zero.low.max ∧
    (profileFor c f).zero.high.min ≤ (profileFor c f).zero.high.max ∧
    (profileFor c f).one.low.min ≤ (profileFor c f).one.low.max ∧
    (profileFor c f).one.high.min ≤ (profileFor c f).one.high.max) ∧
  (∀ rows cols f : Nat, 3157894 < f →
    let P := profileFor (Config.withDefaults rows cols (some f)) f
    P.zero.low.min ≤ P.zero.low.max ∧ P.zero.high.min ≤ P.zero.high.max ∧
    P.one.low.min ≤ P.one.low.max ∧ P.one.high.min ≤ P.one.high.max) ∧
  (∀ rows cols : Nat, (profileFor (Config.withDefaults rows cols (some 3157894)) 3157894).one.high = ⟨3, 2⟩) ∧
  (∀ rows cols : Nat,
    let P := profileFor (Config.withDefaults rows cols (some 3000000)) 3000000
    P.zero.high = ⟨1, 1⟩ ∧ P.zero.low = ⟨3, 3⟩ ∧ P.one.high = ⟨2, 2⟩ ∧ P.one.low = ⟨1, 1⟩) ∧
  (∀ (s : State) (rows cols : Nat), 1 ≤ rows → 1 ≤ cols →
    s.cfg = Config.withDefaults rows cols (some 1000000) →
    ∃ P, exec .calibrate s = .next { s with profile := some P } ∧ P.zero.high = ⟨1, 0⟩ ∧
      ∀ l h : Nat, classify l h P ≠ .bit0)

/-- R72: with the default constants the windows are separated at every frequency, so no pair of durations satisfies
two of the checks a, b, c. -/
def Obligations.DefaultWindowsAreSeparated : Prop :=
  ∀ (rows cols f : Nat), 1 ≤ f →
    let P := profileFor (Config.withDefaults rows cols (some f)) f
    P.one.low.max < P.zero.low.min ∧ P.zero.low.max < P.resetThreshold ∧ P.one.low.max < P.resetThreshold ∧
    ∀ l h : Nat,
      ¬ ((inWindow l P.zero.low && inWindow h P.zero.high) = true ∧
         (inWindow l P.one.low && inWindow h P.one.high) = true) ∧
      ¬ ((inWindow l P.zero.low && inWindow h P.zero.high) = true ∧ P.resetThreshold ≤ l) ∧
      ¬ ((inWindow l P.one.low && inWindow h P.one.high) = true ∧ P.resetThreshold ≤ l)

/-! ## Classification and the four symbols -/

/-- R96, R101, R102: the four checks in the order a, b, c, d, each symbol under exactly its condition. -/
def Obligations.ClassifierFollowsTheCheckOrder : Prop :=
  ∀ (l h : Nat) (P : CalibrationProfile),
    let a := P.zero.low.min ≤ l ∧ l ≤ P.zero.low.max ∧ P.zero.high.min ≤ h ∧ h ≤ P.zero.high.max
    let b := P.one.low.min ≤ l ∧ l ≤ P.one.low.max ∧ P.one.high.min ≤ h ∧ h ≤ P.one.high.max
    let c := P.resetThreshold ≤ l
    (classify l h P = .bit0 ↔ a) ∧ (classify l h P = .bit1 ↔ ¬ a ∧ b) ∧
    (classify l h P = .frameReset ↔ ¬ a ∧ ¬ b ∧ c) ∧ (classify l h P = .noSym ↔ ¬ a ∧ ¬ b ∧ ¬ c)

/-- R103: a window with `min > max` contains no duration. -/
def Obligations.EmptyWindowContainsNothing : Prop :=
  ∀ (d : Nat) (w : TimingWindow), w.max < w.min → inWindow d w = false

/-- CLASSIFY as an operation of its own completes on every decoder, returns the symbol of `(ld[LOW], ld[HIGH], P)` and
writes no state. That the result stands in `ret` is the model's choice (log entry 5). -/
def Obligations.ClassifyReturnsTheSymbol : Prop :=
  ∀ (s : State) (P : CalibrationProfile), s.profile = some P →
    exec .classify s = .next { s with ret := .symbol (classify s.ld.low s.ld.high P) }

/-- R97 to R100: the code, the condition and the action of each symbol. BIT_0 is PUSH_BIT(0), BIT_1 is PUSH_BIT(1),
FRAME_RESET is RESET_CURSOR, NONE is nothing; `dirty` is set exactly when a bit is written. -/
def Obligations.SymbolsPerformTheirActions : Prop :=
  ∀ (s : State) (P : CalibrationProfile), s.profile = some P →
    (∃ t, exec .symBit0 s = .next t ∧ exec (.pushBit false) s = .next t ∧
      (s.nbyte < s.cfg.frameBytes → t.dirty = true) ∧ (s.cfg.frameBytes ≤ s.nbyte → t = s)) ∧
    (∃ t, exec .symBit1 s = .next t ∧ exec (.pushBit true) s = .next t ∧
      (s.nbyte < s.cfg.frameBytes → t.dirty = true) ∧ (s.cfg.frameBytes ≤ s.nbyte → t = s)) ∧
    (exec .symFrameReset s = .next { s with nbyte := 0, nbit := 0 } ∧
      exec .resetCursor s = .next { s with nbyte := 0, nbit := 0 }) ∧
    exec .symNone s = .next s ∧
    (decodeSym 0b10).instr = .symBit0 ∧ (decodeSym 0b11).instr = .symBit1 ∧
    (decodeSym 0b01).instr = .symFrameReset ∧ (decodeSym 0b00).instr = .symNone ∧
    ∀ l h : Nat,
      let a := inWindow l P.zero.low = true ∧ inWindow h P.zero.high = true
      let b := inWindow l P.one.low = true ∧ inWindow h P.one.high = true
      (classify l h P = .bit0 ↔ a) ∧ (classify l h P = .bit1 ↔ ¬ a ∧ b) ∧
      (classify l h P = .frameReset ↔ ¬ a ∧ ¬ b ∧ P.resetThreshold ≤ l) ∧
      (classify l h P = .noSym ↔ ¬ a ∧ ¬ b ∧ ¬ P.resetThreshold ≤ l)

/-! ## The Bit Assembler -/

/-- R105, R107, R109: PUSH_BIT, on no port. Where the buffer is full nothing changes. Where it finds room, the byte at
the cursor is shifted left with the bit in its bit 0, every other byte is as before, the cursor advances by one bit, the
whole buffer is published, the flag is set, and nothing else changes. -/
def Obligations.PushBitWritesPublishesAndAdvances : Prop :=
  ∀ (s : State) (P : CalibrationProfile) (v : Bool), s.profile = some P → s.frame.wellFormed s.cfg = true →
    encode (.pushBit v) = none ∧
    (s.cfg.frameBytes ≤ s.nbyte → exec (.pushBit v) s = .next s) ∧
    (s.nbyte < s.cfg.frameBytes →
    ∃ t, exec (.pushBit v) s = .next t ∧
      (t.frameByte s.nbyte).toNat = ((s.frameByte s.nbyte).toNat * 2 % 256) ||| v.toNat ∧
      (∀ a, a ≠ s.nbyte → t.frameByte a = s.frameByte a) ∧
      (∀ a, t.pubByte a = t.frameByte a) ∧
      (s.nbit = 7 → t.nbyte = s.nbyte + 1 ∧ t.nbit = 0) ∧
      (s.nbit ≠ 7 → t.nbyte = s.nbyte ∧ t.nbit.toNat = s.nbit.toNat + 1) ∧
      t.dirty = true ∧
      t.lt = s.lt ∧ t.ld = s.ld ∧ t.cfg = s.cfg ∧ t.profile = s.profile ∧ t.inputs = s.inputs ∧ t.ret = s.ret)

/-- R106: a PUSH_BIT into a full buffer changes nothing and raises nothing; in a state that keeps the cursor
invariant, full means `nbyte = N`. -/
def Obligations.PushBitIntoFullBufferIsDropped : Prop :=
  ∀ (s : State) (P : CalibrationProfile) (v : Bool), s.profile = some P →
    (s.cfg.frameBytes ≤ s.nbyte → exec (.pushBit v) s = .next s) ∧
    (Inv s → (s.cfg.frameBytes ≤ s.nbyte ↔ s.nbyte = s.cfg.frameBytes))

/-- R112: `k` bits, 1 to 7, pushed into a byte that held `X` leave `((X << k) mod 256) | (the k bits)` in it, and
every other byte as before. -/
def Obligations.PartialByteKeepsShiftedOldBits : Prop :=
  ∀ (s : State) (P : CalibrationProfile) (vs : List Bool), s.profile = some P →
    s.frame.wellFormed s.cfg = true → s.nbyte < s.cfg.frameBytes → s.nbit = 0 → 1 ≤ vs.length → vs.length ≤ 7 →
    ∃ t, execAll (vs.map .pushBit) s = .next t ∧
      (t.frameByte s.nbyte).toNat =
        ((s.frameByte s.nbyte).toNat * 2 ^ vs.length % 256) ||| vs.foldl (fun n v => 2 * n + v.toNat) 0 ∧
      (∀ a, a ≠ s.nbyte → t.frameByte a = s.frameByte a) ∧
      t.nbyte = s.nbyte ∧ t.nbit.toNat = vs.length

/-- R113: eight bits pushed into one byte leave exactly those bits in it, first bit in bit 7, whatever it held. -/
def Obligations.EightBitsReplaceAByte : Prop :=
  ∀ (s : State) (P : CalibrationProfile) (b : Byte), s.profile = some P →
    s.frame.wellFormed s.cfg = true → s.nbyte < s.cfg.frameBytes → s.nbit = 0 →
    ∃ t, execAll ((bitsOfByte b).map .pushBit) s = .next t ∧
      t.frameByte s.nbyte = b ∧ (∀ a, a ≠ s.nbyte → t.frameByte a = s.frameByte a) ∧
      t.nbyte = s.nbyte + 1 ∧ t.nbit = 0

/-- R114: from cursor `(0,0)` exactly the first `8*N` pushes write and every later one is dropped; after `m <= 8*N`
pushes the cursor is `(m div 8, m mod 8)`. -/
def Obligations.BufferHoldsEightBitsPerByte : Prop :=
  ∀ (s : State) (P : CalibrationProfile) (vs : List Bool), s.profile = some P → s.nbyte = 0 → s.nbit = 0 →
    ∃ t, execAll (vs.map .pushBit) s = .next t ∧
      t.nbyte = min vs.length (8 * s.cfg.frameBytes) / 8 ∧
      t.nbit.toNat = min vs.length (8 * s.cfg.frameBytes) % 8 ∧
      execAll ((vs.take (8 * s.cfg.frameBytes)).map .pushBit) s = .next t ∧
      (s.frame.wellFormed s.cfg = true → t.frame.wellFormed s.cfg = true)

/-- R110, R111: RESET_CURSOR, on no port and selected by SYM code `0b01`, moves the cursor to `(0,0)` and touches
nothing else; a cursor at the full position leaves it only for `(0,0)`. -/
def Obligations.ResetCursorTouchesOnlyTheCursor : Prop :=
  ∀ (s : State) (P : CalibrationProfile), s.profile = some P →
    encode .resetCursor = none ∧
    exec .resetCursor s = .next { s with nbyte := 0, nbit := 0 } ∧
    exec (decodeSym 0b01).instr s = exec .resetCursor s ∧
    ∀ (i : Instr) (t : State), s.nbyte = s.cfg.frameBytes → exec i s = .next t →
      (t.nbyte = s.nbyte ∧ t.nbit = s.nbit) ∨ (t.nbyte = 0 ∧ t.nbit = 0)

/-! ## The Transition Event Handler -/

/-- R83, R84: FALL(t) writes `ld[HIGH]` and `lt[LOW]` and nothing else. -/
def Obligations.FallRecordsTheHighPulse : Prop :=
  (∀ (w t : Nat), decodePort w ⟨0b0010, t⟩ = .fall (t % 2 ^ w)) ∧
  ∀ (s : State) (P : CalibrationProfile) (t : Nat), s.profile = some P → s.lt.low ≤ t → s.lt.high ≤ t →
    exec (.fall t) s =
      .next { s with ld := { s.ld with high := t - s.lt.high }, lt := { s.lt with low := t } }

/-- R85: RISE(t) writes `ld[LOW]` and `lt[HIGH]`, classifies the new `ld[LOW]` with the old `ld[HIGH]`, and then
writes one bit, resets the cursor, or does nothing more. Every byte but the one at the cursor is as before. -/
def Obligations.RiseTimesClassifiesAndActs : Prop :=
  (∀ (w t : Nat), decodePort w ⟨0b0011, t⟩ = .rise (t % 2 ^ w)) ∧
  ∀ (s : State) (P : CalibrationProfile) (t : Nat), s.profile = some P → s.frame.wellFormed s.cfg = true →
    s.lt.low ≤ t → s.lt.high ≤ t →
    ∃ u, exec (.rise t) s = .next u ∧
      u.lt = ⟨s.lt.low, t⟩ ∧ u.ld = ⟨t - s.lt.low, s.ld.high⟩ ∧
      u.cfg = s.cfg ∧ u.profile = s.profile ∧ u.inputs = s.inputs ∧ u.ret = s.ret ∧
      (∀ v : Bool, classify (t - s.lt.low) s.ld.high P = (if v then .bit1 else .bit0) →
        s.nbyte < s.cfg.frameBytes →
        (u.frameByte s.nbyte).toNat = ((s.frameByte s.nbyte).toNat * 2 % 256) ||| v.toNat ∧
        (∀ a, a ≠ s.nbyte → u.frameByte a = s.frameByte a) ∧ (∀ a, u.pubByte a = u.frameByte a) ∧
        u.nbyte = (if s.nbit = 7 then s.nbyte + 1 else s.nbyte) ∧
        u.nbit = (if s.nbit = 7 then 0 else s.nbit + 1) ∧ u.dirty = true) ∧
      (s.riseWritesBit P t = false → u.frame = s.frame ∧ u.pub = s.pub ∧ u.dirty = s.dirty) ∧
      (classify (t - s.lt.low) s.ld.high P = .frameReset → u.nbyte = 0 ∧ u.nbit = 0) ∧
      (classify (t - s.lt.low) s.ld.high P ≠ .frameReset → s.riseWritesBit P t = false →
        u.nbyte = s.nbyte ∧ u.nbit = s.nbit)

/-- R86: a RISE is its timestamping followed by exactly one action, that of the symbol it recognises: PUSH_BIT(0),
PUSH_BIT(1), RESET_CURSOR, or nothing. -/
def Obligations.RiseDispatchesExactlyOneAction : Prop :=
  ∀ (s : State) (P : CalibrationProfile) (t : Nat), s.profile = some P → s.lt.low ≤ t → s.lt.high ≤ t →
    let u : State := { s with ld := ⟨t - s.lt.low, s.ld.high⟩, lt := ⟨s.lt.low, t⟩ }
    exec (.rise t) s =
      match classify (t - s.lt.low) s.ld.high P with
      | .bit0 => exec (.pushBit false) u
      | .bit1 => exec (.pushBit true) u
      | .frameReset => exec .resetCursor u
      | .noSym => .next u

/-- R87: the pair classified at a RISE is the low pulse that it ends and the high pulse immediately before that low. -/
def Obligations.RiseUsesTheHighPulseBeforeTheLow : Prop :=
  ∀ (s : State) (P : CalibrationProfile) (t1 t2 : Nat), s.profile = some P →
    s.lt.low ≤ t1 → s.lt.high ≤ t1 → t1 ≤ t2 →
    execAll [.fall t1, .rise t2] s =
      exec (classify (t2 - t1) (t1 - s.lt.high) P).instr
        { s with ld := ⟨t2 - t1, t1 - s.lt.high⟩, lt := ⟨t1, t2⟩ }

/-- R82: after RESET, a sequence of commands has a next state exactly when the tick of no transition is below the tick
of an earlier one since the last RESET. -/
def Obligations.DecreasingTickHasNoSuccessor : Prop :=
  ∀ (s : State) (P : CalibrationProfile) (ps : List PortSample), s.profile = some P →
    ((∃ t, execAll (.reset :: ps.map (decodePort s.cfg.tickW)) s = .next t) ↔
      ticksInOrder s.cfg.tickW 0 ps = true) ∧
    (ticksInOrder s.cfg.tickW 0 ps = false →
      execAll (.reset :: ps.map (decodePort s.cfg.tickW)) s = .refused .tickDecreased)

/-- R90: equal ticks are allowed; a low of 0 ticks is neither a bit nor a reset, and after a high of 0 ticks no bit is
written. -/
def Obligations.EqualTicksContributeNothing : Prop :=
  ∀ (s : State) (P : CalibrationProfile) (t : Nat), s.profile = some P → calibrate s.cfg = .ok P →
    (s.lt.high ≤ s.lt.low →
      exec (.rise s.lt.low) s =
        .next { s with ld := ⟨0, s.ld.high⟩, lt := ⟨s.lt.low, s.lt.low⟩ }) ∧
    (s.lt.low ≤ s.lt.high →
      exec (.fall s.lt.high) s =
        .next { s with ld := ⟨s.ld.low, 0⟩, lt := ⟨s.lt.high, s.lt.high⟩ }) ∧
    (s.ld.high = 0 → s.riseWritesBit P t = false)

/-- R88: no alternation check. A second RISE measures the low from the same `lt[LOW]` and classifies it with the same
`ld[HIGH]`; a second FALL measures the high from the same `lt[HIGH]` and moves `lt[LOW]`. -/
def Obligations.RepeatedLevelsAreTakenLiterally : Prop :=
  ∀ (s : State) (P : CalibrationProfile) (t1 t2 : Nat), s.profile = some P →
    s.lt.low ≤ t1 → s.lt.high ≤ t1 → t1 ≤ t2 →
    (∃ u, exec (.rise t1) s = .next u ∧
      exec (.rise t2) u =
        exec (classify (t2 - s.lt.low) s.ld.high P).instr
          { u with ld := ⟨t2 - s.lt.low, s.ld.high⟩, lt := ⟨s.lt.low, t2⟩ }) ∧
    execAll [.fall t1, .fall t2] s =
      .next { s with ld := ⟨s.ld.low, t2 - s.lt.high⟩, lt := ⟨t2, s.lt.high⟩ }

/-- R156: with the default constants, a high pulse whose low reaches the reset threshold becomes no bit; the RISE that
ends it only moves the cursor back. -/
def Obligations.HighPulseBeforeAGapIsLost : Prop :=
  ∀ (s : State) (P : CalibrationProfile) (rows cols f : Nat) (t1 t2 : Nat), s.profile = some P → 1 ≤ f →
    s.cfg = Config.withDefaults rows cols (some f) → P = profileFor s.cfg f →
    s.lt.low ≤ t1 → s.lt.high ≤ t1 → t1 + P.resetThreshold ≤ t2 →
    execAll [.fall t1, .rise t2] s =
      .next { s with ld := ⟨t2 - t1, t1 - s.lt.high⟩, lt := ⟨t1, t2⟩, nbyte := 0, nbit := 0 }

/-! ## RESET, IDLE and Frame Publication -/

/-- R150: RESET gives every register its reset value, both buffers `FRAME_INIT`, and leaves the profile and the
parameters alone. -/
def Obligations.ResetRestoresTheResetValues : Prop :=
  (∀ (w t : Nat) (c : BitVec 4), c.getLsbD 3 = true → decodePort w ⟨c, t⟩ = .reset) ∧
  ∀ (s : State) (P : CalibrationProfile), s.profile = some P →
    ∃ t, exec .reset s = .next t ∧ t.lt = ⟨0, 0⟩ ∧ t.ld = ⟨0, 0⟩ ∧ t.nbyte = 0 ∧ t.nbit = 0 ∧ t.dirty = false ∧
      (∀ a, t.frameByte a = s.cfg.initByte a ∧ t.pubByte a = s.cfg.initByte a) ∧
      t.frame.wellFormed s.cfg = true ∧ t.pub = t.frame ∧
      t.cfg = s.cfg ∧ t.profile = s.profile ∧ t.inputs = s.inputs ∧ t.ret = s.ret

/-- R151: a cycle with `rst = 1` applies RESET whatever the other ports carry, from any state of a decoder; no READ is
performed and no transition is recorded. What the ports carry stands in the model's field `inputs` (log entry 1). -/
def Obligations.RstOverridesEveryOtherPort : Prop :=
  ∀ (s : State) (P : CalibrationProfile) (c : BitVec 4) (tick : Nat) (rest : List PortSample),
    s.profile = some P → c.getLsbD 3 = true → s.inputs = ⟨c, tick⟩ :: rest →
    step s = exec .reset { s with inputs := rest } ∧
    ∃ t, step s = .next t ∧ t.lt = ⟨0, 0⟩ ∧ t.ld = ⟨0, 0⟩ ∧ t.nbyte = 0 ∧ t.nbit = 0 ∧ t.dirty = false ∧
      t.ret = s.ret ∧ t.inputs = rest

/-- R53: IDLE changes nothing, whatever `ev_level` and `tick` show. What the ports show stands in the model's field
`inputs` (log entry 1). -/
def Obligations.IdleChangesNothing : Prop :=
  ∀ (s : State) (P : CalibrationProfile), s.profile = some P →
    exec .idle s = .next s ∧
    ∀ (c : BitVec 4) (tick : Nat) (rest : List PortSample), c = 0b0000 ∨ c = 0b0001 →
      s.inputs = ⟨c, tick⟩ :: rest → step s = .next { s with inputs := rest }

/-- R120, R122: READ returns the published buffer and the flag as they were before the step, clears the flag, and
changes nothing else; a second READ returns the same buffer and a clear flag. The result stands in the model's field
`ret` (log entry 5). -/
def Obligations.ReadReturnsSnapshotAndClears : Prop :=
  (∀ w t : Nat, decodePort w ⟨0b0100, t⟩ = .read ∧ decodePort w ⟨0b0101, t⟩ = .read) ∧
  ∀ (s : State) (P : CalibrationProfile), s.profile = some P →
    exec .read s =
      .next { s with
        dirty := false
        ret := .snapshot ((List.range s.cfg.frameBytes).map s.pubByte) s.dirty } ∧
    execAll [.read, .read] s =
      .next { s with
        dirty := false
        ret := .snapshot ((List.range s.cfg.frameBytes).map s.pubByte) false }

/-- R49: READ_FALL returns what READ would have returned, clears the flag, and records the transition as FALL does.
The result stands in the model's field `ret` (log entry 5). -/
def Obligations.ReadFallReadsThenFalls : Prop :=
  (∀ (w t : Nat), decodePort w ⟨0b0110, t⟩ = .readFall (t % 2 ^ w)) ∧
  ∀ (s : State) (P : CalibrationProfile) (t : Nat), s.profile = some P → s.lt.low ≤ t → s.lt.high ≤ t →
    exec (.readFall t) s =
      .next { s with
        ld := { s.ld with high := t - s.lt.high }
        lt := { s.lt with low := t }
        dirty := false
        ret := .snapshot s.peek.1 s.peek.2 }

/-- R50: READ_RISE does what RISE does, returns the buffer and the flag from before the step, and leaves `dirty` set
exactly when the RISE writes a bit. The result stands in the model's field `ret` (log entry 5). -/
def Obligations.ReadRiseSetWinsOverClear : Prop :=
  (∀ (w t : Nat), decodePort w ⟨0b0111, t⟩ = .readRise (t % 2 ^ w)) ∧
  ∀ (s : State) (P : CalibrationProfile) (t : Nat), s.profile = some P → s.lt.low ≤ t → s.lt.high ≤ t →
    ∃ u, exec (.rise t) s = .next u ∧ u.dirty = (s.riseWritesBit P t || s.dirty) ∧
      exec (.readRise t) s =
        .next { u with
          dirty := s.riseWritesBit P t
          ret := .snapshot s.peek.1 s.peek.2 }

/-- R61: byte `i` of `pub` is `frame_o[8*i+7 : 8*i]`, bit 7 of the byte at `8*i+7`. -/
def Obligations.OutputBusCarriesThePublishedBytes : Prop :=
  ∀ (s : State) (i : Nat), i < s.cfg.frameBytes →
    s.frameO.extractLsb' (8 * i) 8 = s.pubByte i ∧
    ∀ j, j < 8 → s.frameO.getLsbD (8 * i + j) = (s.pubByte i).getLsbD j

/-- READ and FALL in either order are the same (R123: a READ never alters a transition; D19: both orders are
admitted). -/
def Obligations.ReadAndFallCommute : Prop :=
  ∀ (s : State) (t : Nat), execAll [.read, .fall t] s = execAll [.fall t, .read] s

/-- The flag never loses an update (R162): if the flag is clear after operations that follow a READ, with no other READ
and no RESET among them, then neither buffer has changed since that READ. -/
def Obligations.ClearFlagMeansNothingNewSinceRead : Prop :=
  ∀ (s t : State) (is : List Instr),
    (∀ i ∈ is, i ≠ .reset ∧ i ≠ .read ∧ (∀ k, i ≠ .readFall k) ∧ (∀ k, i ≠ .readRise k)) →
    execAll (.read :: is) s = .next t → t.dirty = false → t.frame = s.frame ∧ t.pub = s.pub

/-! ## Who may change what -/

/-- R16: `dirty` is set by every written bit and by nothing else, cleared by READ and RESET and by nothing else, and no
operation tests it to decide what it does: with the other value of the flag every operation does the same to everything
but the flag and the value READ returns. It shows on the output `dirty_o`. A RISE writes a bit exactly when
`State.riseWritesBit` says so, and PUSH_BIT, BIT_0 and BIT_1 when there is room (`State.writesBit`). -/
def Obligations.FlagIsSetByWritesAndSteersNothing : Prop :=
  (∀ (i : Instr) (s t : State), exec i s = .next t →
    (s.writesBit i = true → t.dirty = true) ∧
    (s.writesBit i = false → t.dirty = (s.dirty && !clearsFlag i))) ∧
  (∀ (s : State) (P : CalibrationProfile) (k : Nat), s.profile = some P →
    s.writesBit (.rise k) = s.riseWritesBit P k ∧ s.writesBit (.readRise k) = s.riseWritesBit P k) ∧
  (∀ s : State, s.nbyte < s.cfg.frameBytes →
    s.writesBit .symBit0 = true ∧ s.writesBit .symBit1 = true ∧ ∀ v, s.writesBit (.pushBit v) = true) ∧
  (∀ (i : Instr) (s t : State) (d : Bool), exec i s = .next t →
    ∃ t', exec i { s with dirty := d } = .next t' ∧ t' = { t with dirty := t'.dirty, ret := t'.ret }) ∧
  ∀ s : State, s.dirtyO = s.dirty

/-- No operation reads `ret`, the model's own field (log entry 5). -/
def Obligations.ReturnValueIsNeverRead : Prop :=
  ∀ (i : Instr) (s t : State) (r : Ret), exec i s = .next t →
    ∃ t', exec i { s with ret := r } = .next t' ∧ t' = { t with ret := t'.ret }

/-- No operation reads or changes `inputs`, the model's own field for what the environment will present (log
entry 1); a step uses up the first entry around the operation. -/
def Obligations.OperationsIgnoreComingInputs : Prop :=
  ∀ (i : Instr) (s t : State) (ins : List PortSample), exec i s = .next t →
    t.inputs = s.inputs ∧ exec i { s with inputs := ins } = .next { t with inputs := ins }

/-- R13: the frame buffer is written only by an operation that pushes a bit and finds room (`State.writesBit`, for a
RISE `State.riseWritesBit`), only at the cursor, one bit shifted into that byte, and cleared only by RESET. Whatever
else runs leaves both buffers. -/
def Obligations.FrameIsWrittenOnlyAtTheCursor : Prop :=
  (∀ (i : Instr) (s t : State), exec i s = .next t → s.frame.wellFormed s.cfg = true → i ≠ .reset →
    (∀ a, a ≠ s.nbyte → t.frameByte a = s.frameByte a) ∧
    (s.writesBit i = true → ∃ v : Bool,
      (t.frameByte s.nbyte).toNat = ((s.frameByte s.nbyte).toNat * 2 % 256) ||| v.toNat) ∧
    (s.writesBit i = false → t.frame = s.frame ∧ t.pub = s.pub)) ∧
  (∀ (i : Instr) (s : State), s.cfg.frameBytes ≤ s.nbyte → s.writesBit i = false) ∧
  (∀ (s : State) (P : CalibrationProfile) (k : Nat), s.profile = some P →
    s.writesBit (.rise k) = s.riseWritesBit P k ∧ s.writesBit (.readRise k) = s.riseWritesBit P k)

/-- R12: the TransitionState is written by transitions and by RESET only, and besides the transitions only CLASSIFY,
to which its durations are operands, reads it. -/
def Obligations.OnlyTransitionsUseTheTickRegisters : Prop :=
  ∀ (i : Instr) (s t : State), exec i s = .next t →
    (∀ k, i ≠ .fall k) → (∀ k, i ≠ .rise k) → (∀ k, i ≠ .readFall k) → (∀ k, i ≠ .readRise k) → i ≠ .reset →
    t.lt = s.lt ∧ t.ld = s.ld ∧
    (i ≠ .classify → ∀ lt ld : PerLevel,
      exec i { s with lt := lt, ld := ld } = .next { t with lt := lt, ld := ld })

/-- R21: no operation changes the parameters; only CALIBRATE gives a profile, and on a calibrated decoder it gives the
one that is there. -/
def Obligations.ConfigurationIsImmutable : Prop :=
  ∀ (i : Instr) (s t : State), exec i s = .next t →
    t.cfg = s.cfg ∧ (i ≠ .calibrate → t.profile = s.profile) ∧
    (Inv s → s.profile ≠ none → t.profile = s.profile)

/-- R108: an operation that writes a bit advances the cursor by one bit, rolling from bit 7 to the next byte's bit 0; no
other operation advances it: one that resets it moves it to `(0,0)`, every other leaves it. A RISE writes a bit exactly
when `State.riseWritesBit` says so and resets the cursor exactly when its symbol is FRAME_RESET. -/
def Obligations.CursorStepsByOneBitOrResets : Prop :=
  (∀ (i : Instr) (s t : State), exec i s = .next t →
    (s.writesBit i = true →
      s.nbyte < s.cfg.frameBytes ∧
      (s.nbit = 7 → t.nbyte = s.nbyte + 1 ∧ t.nbit = 0) ∧
      (s.nbit ≠ 7 → t.nbyte = s.nbyte ∧ t.nbit.toNat = s.nbit.toNat + 1)) ∧
    (s.resetsCursor i = true → t.nbyte = 0 ∧ t.nbit = 0) ∧
    (s.writesBit i = false → s.resetsCursor i = false → t.nbyte = s.nbyte ∧ t.nbit = s.nbit)) ∧
  (∀ (i : Instr) (s : State), ¬ (s.writesBit i = true ∧ s.resetsCursor i = true)) ∧
  (∀ (s : State) (P : CalibrationProfile) (k : Nat), s.profile = some P →
    s.writesBit (.rise k) = s.riseWritesBit P k ∧ s.writesBit (.readRise k) = s.riseWritesBit P k ∧
    (s.resetsCursor (.rise k) = true ↔ classify (k - s.lt.low) s.ld.high P = .frameReset) ∧
    (s.resetsCursor (.readRise k) = true ↔ classify (k - s.lt.low) s.ld.high P = .frameReset)) ∧
  (∀ s : State, s.nbyte < s.cfg.frameBytes →
    s.writesBit .symBit0 = true ∧ s.writesBit .symBit1 = true ∧ ∀ v, s.writesBit (.pushBit v) = true)

/-! ## Memory -/

/-- The list of bytes has one canonical form: a write keeps it and is read back, and two buffers in that form that
read alike are equal. The representation is the model's (log entry 13). -/
def Obligations.EqualBuffersAreEqualLists : Prop :=
  ∀ (c : Config) (m : Memory), m.wellFormed c = true →
    (∀ (a : Nat) (b : Byte), a < c.frameBytes →
      (m.write c a b).wellFormed c = true ∧
      ∀ x, (m.write c a b).read c x = if x = a then b else m.read c x) ∧
    (∀ m' : Memory, m'.wellFormed c = true → (∀ a, a < c.frameBytes → m'.read c a = m.read c a) → m' = m)

/-! ## The whole machine -/

/-- The reset state keeps the invariant. -/
def Obligations.ResetStateIsGood : Prop := Inv State.reset

/-- Every step keeps the invariant, from every state that has it: the profile is the calibrated one, the cursor stays
in range (R15), the buffer keeps its canonical form (the model's list, log entry 13), it is published (R19), and the
tick registers hold `TICK_W`-bit values (R10, R11). The step of a state without a profile is the model's choice (log
entry 8). -/
def Obligations.EveryStepKeepsTheInvariant : Prop :=
  ∀ s t : State, Inv s → step s = .next t → Inv t

/-- Every operation keeps the cursor in range, `nbyte = N` implying `nbit = 0`, and the buffer published, from every
state that has them, whatever else that state holds (the inductive step behind R15 and R19). -/
def Obligations.EveryOperationKeepsCursorAndPublication : Prop :=
  ∀ (i : Instr) (s t : State), exec i s = .next t →
    s.nbyte ≤ s.cfg.frameBytes → (s.nbyte = s.cfg.frameBytes → s.nbit = 0) →
    (∀ a, s.pubByte a = s.frameByte a) →
    t.nbyte ≤ t.cfg.frameBytes ∧ (t.nbyte = t.cfg.frameBytes → t.nbit = 0) ∧ ∀ a, t.pubByte a = t.frameByte a

/-- R15, R19: whatever operations follow a RESET of a calibrated decoder, the cursor never passes the buffer's end,
`nbyte = N` implies `nbit = 0`, the full state is left only for `(0,0)`, and every published byte equals the working
one. -/
def Obligations.CursorAndPublicationHoldAfterReset : Prop :=
  ∀ (s t : State) (P : CalibrationProfile) (is : List Instr), s.profile = some P →
    execAll (.reset :: is) s = .next t →
    t.nbyte ≤ t.cfg.frameBytes ∧ t.nbit.toNat ≤ 7 ∧ (t.nbyte = t.cfg.frameBytes → t.nbit = 0) ∧
    (∀ (i : Instr) (u : State), t.nbyte = t.cfg.frameBytes → exec i t = .next u →
      (u.nbyte = t.nbyte ∧ u.nbit = 0) ∨ (u.nbyte = 0 ∧ u.nbit = 0)) ∧
    ∀ a, t.pubByte a = t.frameByte a

/-- R132: FALL and RISE are total on every tick that is not below an earlier one, whatever the pulses measure, and a
RISE that recognises no symbol changes the timing only; no operation ever faults. -/
def Obligations.MalformedTimingStaysSilent : Prop :=
  (∀ (s : State) (P : CalibrationProfile) (t : Nat), s.profile = some P → s.lt.low ≤ t → s.lt.high ≤ t →
    (∃ u, exec (.fall t) s = .next u) ∧ (∃ u, exec (.rise t) s = .next u) ∧
    (classify (t - s.lt.low) s.ld.high P = .noSym →
      exec (.rise t) s = .next { s with ld := ⟨t - s.lt.low, s.ld.high⟩, lt := ⟨s.lt.low, t⟩ })) ∧
  ∀ (i : Instr) (s : State) (r : Fault), exec i s ≠ .fault r

/-- While the environment keeps the order of ticks, a decoder never stops (R132, R133, R167): every step of every run
answers a next state, and that state keeps the invariant. What the environment presents is the model's list `inputs`,
and an exhausted list is IDLE (log entry 1); the invariant includes the canonical form of the model's byte list (log
entry 13). -/
def Obligations.ConformingRunNeverStops : Prop :=
  ∀ s : State, Inv s → s.profile ≠ none → s.environmentOk = true →
    NeverStops s ∧ ∀ k t, Sys2Proof.core.run k s = .next t → Inv t

/-- A step runs the operation that the ports present: the first sample of `inputs`, decoded, with that sample used up;
in particular the bytes, or the table word, presented next. The list `inputs` and the byte image are the model's (log
entries 1 and 12). -/
def Obligations.StepRunsThePresentedOperation : Prop :=
  ∀ (s : State) (P : CalibrationProfile), s.profile = some P →
    (∀ (p : PortSample) (rest : List PortSample), s.inputs = p :: rest →
      step s = exec (decodePort s.cfg.tickW p) { s with inputs := rest }) ∧
    (∀ (bs : List Byte) (i : Instr), s.cfg.tickW = 64 → decodeBytes 64 bs = .ok i →
      step (s.presentBytes bs) = exec i s) ∧
    (∀ (nbits w : Nat) (i : Instr), s.cfg.tickW = 64 → decodeTableWord nbits w = some i →
      step (s.withFetchWord nbits w) = exec i s)

/-- From power-up with any register contents, elaboration (CALIBRATE) and then RESET give a good state (R153), and with a
zero or missing frequency there is no run (R130). That a step of a state without a profile is its elaboration is the
model's choice (log entry 8). -/
def Obligations.CalibrateThenResetBootsTheDecoder : Prop :=
  (∀ (s : State) (k : Nat), s.profile = none → (s.cfg.fHz = none ∨ s.cfg.fHz = some 0) →
    Sys2Proof.core.run (k + 1) s = .refused (.calibrationError s.cfg.fHz)) ∧
  ∀ (s : State) (f : Nat), s.profile = none → s.cfg.fHz = some f → 1 ≤ f → s.cfg.withinSpec = true →
    (profileFor s.cfg f).fits s.cfg.tickW = true →
    ∃ t u, step s = .next t ∧ t = { s with profile := some (profileFor s.cfg f) } ∧
      exec .reset t = .next u ∧ Inv u ∧ u.profile = some (profileFor s.cfg f) ∧ u.nbyte = 0 ∧ u.nbit = 0

/-- One cycle of READ and a transition is the two cycles of READ and then the transition (R49, R50; D4). -/
def Obligations.SameCycleReadIsReadFirst : Prop :=
  ∀ (s : State) (tick tick' : Nat) (rest : List PortSample),
    s.profile ≠ none →
    step { s with inputs := ⟨0b0110, tick⟩ :: rest } =
      Sys2Proof.core.run 2 { s with inputs := ⟨0b0100, tick'⟩ :: ⟨0b0010, tick⟩ :: rest } ∧
    step { s with inputs := ⟨0b0111, tick⟩ :: rest } =
      Sys2Proof.core.run 2 { s with inputs := ⟨0b0100, tick'⟩ :: ⟨0b0011, tick⟩ :: rest }

/-- The headline: with the default constants and a clock of at least 6666667 Hz, the eight pulse pairs of `BYTE b`
(R59) received at a byte start put exactly `b` into the byte at the cursor, leave every other byte, publish the
buffer, set the flag and move the cursor to the next byte. -/
def Obligations.ReceivedByteIsStored : Prop :=
  ∀ (s : State) (P : CalibrationProfile) (rows cols f : Nat) (b : Byte), s.profile = some P →
    s.cfg = Config.withDefaults rows cols (some f) → P = profileFor s.cfg f → 6666667 ≤ f →
    s.frame.wellFormed s.cfg = true → s.nbyte < s.cfg.frameBytes → s.nbit = 0 → s.lt.low ≤ s.lt.high →
    ∃ t, execAll (sendBits s.cfg f s.lt.high (bitsOfByte b)) s = .next t ∧
      t.frameByte s.nbyte = b ∧ (∀ a, a ≠ s.nbyte → t.frameByte a = s.frameByte a) ∧
      (∀ a, t.pubByte a = t.frameByte a) ∧ t.nbyte = s.nbyte + 1 ∧ t.nbit = 0 ∧ t.dirty = true ∧
      t.cfg = s.cfg ∧ t.profile = s.profile
end

