-- ==== Sys2Proof/Laws/Memory.lean ====
section
/-! SUPPORT. The laws of the frame buffer: a read after a write, and the canonical form. -/

namespace Sys2Proof.Machine

theorem Memory.lookup_put (m : Memory) (a : Nat) (b : Byte) (x : Nat) :
    (m.put a b).lookup x = if a = x then some b else m.lookup x := by
  induction m with
  | nil => simp [Memory.put, Memory.lookup]
  | cons e rest ih =>
    obtain ⟨y, v⟩ := e
    simp only [Memory.put]
    split
    · simp [Memory.lookup]
    · split
      · subst_vars; simp only [Memory.lookup]; split <;> rfl
      · simp only [Memory.lookup, ih]
        split
        · next h => subst h; rw [if_neg (by assumption)]
        · rfl

/-- An address below `lo` is not listed. -/
theorem Memory.lookup_below {c : Config} {m : Memory} {lo a : Nat} (h : m.wellFormedFrom c lo = true) (ha : a < lo) :
    m.lookup a = none := by
  induction m generalizing lo with
  | nil => rfl
  | cons e rest ih =>
    obtain ⟨y, v⟩ := e
    simp only [Memory.wellFormedFrom, Bool.and_eq_true, decide_eq_true_eq] at h
    simp only [Memory.lookup]
    rw [if_neg (by omega)]
    exact ih h.2 (by omega)

theorem Memory.lookup_erase {c : Config} {m : Memory} {lo : Nat} (h : m.wellFormedFrom c lo = true) (a x : Nat) :
    (m.erase a).lookup x = if a = x then none else m.lookup x := by
  induction m generalizing lo with
  | nil => simp [Memory.erase, Memory.lookup]
  | cons e rest ih =>
    obtain ⟨y, v⟩ := e
    simp only [Memory.wellFormedFrom, Bool.and_eq_true, decide_eq_true_eq] at h
    simp only [Memory.erase]
    split
    · next hay =>
      subst hay
      simp only [Memory.lookup]
      split
      · next hax => subst hax; exact Memory.lookup_below h.2 (by omega)
      · rfl
    · simp only [Memory.lookup, ih h.2]
      split
      · next h' => subst h'; rw [if_neg (by assumption)]
      · rfl

theorem Memory.wellFormedFrom_mono {c : Config} {m : Memory} {lo lo' : Nat} (h : m.wellFormedFrom c lo = true)
    (hlo : lo' ≤ lo) : m.wellFormedFrom c lo' = true := by
  cases m with
  | nil => rfl
  | cons e rest =>
    obtain ⟨y, v⟩ := e
    simp only [Memory.wellFormedFrom, Bool.and_eq_true, decide_eq_true_eq] at h ⊢
    exact ⟨⟨⟨by omega, h.1.1.2⟩, h.1.2⟩, h.2⟩

theorem Memory.wellFormedFrom_put {c : Config} {m : Memory} {lo a : Nat} {b : Byte}
    (h : m.wellFormedFrom c lo = true) (hlo : lo ≤ a) (ha : a < c.frameBytes) (hb : b ≠ c.initByte a) :
    (m.put a b).wellFormedFrom c lo = true := by
  induction m generalizing lo with
  | nil => simp [Memory.put, Memory.wellFormedFrom, hlo, ha, hb]
  | cons e rest ih =>
    obtain ⟨y, v⟩ := e
    have h' := h
    simp only [Memory.wellFormedFrom, Bool.and_eq_true, decide_eq_true_eq] at h
    simp only [Memory.put]
    split
    · next hay =>
      simp only [Memory.wellFormedFrom, Bool.and_eq_true, decide_eq_true_eq]
      exact ⟨⟨⟨hlo, ha⟩, hb⟩, ⟨⟨by omega, h.1.1.2⟩, h.1.2⟩, h.2⟩
    · split
      · next hay =>
        subst hay
        simp only [Memory.wellFormedFrom, Bool.and_eq_true, decide_eq_true_eq]
        exact ⟨⟨⟨hlo, ha⟩, hb⟩, h.2⟩
      · simp only [Memory.wellFormedFrom, Bool.and_eq_true, decide_eq_true_eq]
        exact ⟨h.1, ih h.2 (by omega)⟩

theorem Memory.wellFormedFrom_erase {c : Config} {m : Memory} {lo : Nat} (h : m.wellFormedFrom c lo = true)
    (a : Nat) : (m.erase a).wellFormedFrom c lo = true := by
  induction m generalizing lo with
  | nil => rfl
  | cons e rest ih =>
    obtain ⟨y, v⟩ := e
    simp only [Memory.wellFormedFrom, Bool.and_eq_true, decide_eq_true_eq] at h
    simp only [Memory.erase]
    split
    · exact Memory.wellFormedFrom_mono h.2 (by omega)
    · simp only [Memory.wellFormedFrom, Bool.and_eq_true, decide_eq_true_eq]
      exact ⟨h.1, ih h.2⟩

/-- A write inside the buffer keeps the canonical form. -/
theorem Memory.write_wellFormed {c : Config} {m : Memory} {a : Nat} {b : Byte} (h : m.wellFormed c = true)
    (ha : a < c.frameBytes) : (m.write c a b).wellFormed c = true := by
  unfold Memory.write
  split
  · exact Memory.wellFormedFrom_erase h a
  · next hb => exact Memory.wellFormedFrom_put h (Nat.zero_le a) ha hb

/-- Everything a write does to a canonical memory, as the bytes read. -/
theorem Memory.read_write {c : Config} {m : Memory} (h : m.wellFormed c = true) (a : Nat) (b : Byte) (x : Nat) :
    (m.write c a b).read c x = if a = x then b else m.read c x := by
  unfold Memory.write Memory.read
  split
  · next hb =>
    rw [Memory.lookup_erase h]
    split
    · next hax => subst hax; simp [hb]
    · rfl
  · rw [Memory.lookup_put]
    split <;> rfl

@[simp] theorem Memory.wellFormed_nil (c : Config) : Memory.wellFormed c [] = true := rfl

@[simp] theorem Memory.read_nil (c : Config) (a : Nat) : Memory.read c [] a = c.initByte a := rfl

/-- A listed address reads otherwise than `FRAME_INIT`. -/
theorem Memory.lookup_ne_init {c : Config} {m : Memory} {lo a : Nat} {b : Byte}
    (h : m.wellFormedFrom c lo = true) (hb : m.lookup a = some b) : b ≠ c.initByte a := by
  induction m generalizing lo with
  | nil => simp [Memory.lookup] at hb
  | cons e rest ih =>
    obtain ⟨y, v⟩ := e
    simp only [Memory.wellFormedFrom, Bool.and_eq_true, decide_eq_true_eq] at h
    simp only [Memory.lookup] at hb
    split at hb
    · next hya => subst hya; cases hb; exact h.1.2
    · exact ih h.2 hb

end Sys2Proof.Machine
end

