-- ==== Sys2Proof/Laws/State.lean ====
section
/-! SUPPORT. What each register update leaves in each field of the state: one lemma per field per update. -/

namespace Sys2Proof.Machine

variable (s : State)

@[simp] theorem State.setDirty_lt : s.setDirty.lt = s.lt := rfl
@[simp] theorem State.setDirty_ld : s.setDirty.ld = s.ld := rfl
@[simp] theorem State.setDirty_frame : s.setDirty.frame = s.frame := rfl
@[simp] theorem State.setDirty_pub : s.setDirty.pub = s.pub := rfl
@[simp] theorem State.setDirty_nbyte : s.setDirty.nbyte = s.nbyte := rfl
@[simp] theorem State.setDirty_nbit : s.setDirty.nbit = s.nbit := rfl
@[simp] theorem State.setDirty_dirty : s.setDirty.dirty = true := rfl
@[simp] theorem State.setDirty_cfg : s.setDirty.cfg = s.cfg := rfl
@[simp] theorem State.setDirty_profile : s.setDirty.profile = s.profile := rfl
@[simp] theorem State.setDirty_inputs : s.setDirty.inputs = s.inputs := rfl
@[simp] theorem State.setDirty_ret : s.setDirty.ret = s.ret := rfl

@[simp] theorem State.clearDirty_lt : s.clearDirty.lt = s.lt := rfl
@[simp] theorem State.clearDirty_ld : s.clearDirty.ld = s.ld := rfl
@[simp] theorem State.clearDirty_frame : s.clearDirty.frame = s.frame := rfl
@[simp] theorem State.clearDirty_pub : s.clearDirty.pub = s.pub := rfl
@[simp] theorem State.clearDirty_nbyte : s.clearDirty.nbyte = s.nbyte := rfl
@[simp] theorem State.clearDirty_nbit : s.clearDirty.nbit = s.nbit := rfl
@[simp] theorem State.clearDirty_dirty : s.clearDirty.dirty = false := rfl
@[simp] theorem State.clearDirty_cfg : s.clearDirty.cfg = s.cfg := rfl
@[simp] theorem State.clearDirty_profile : s.clearDirty.profile = s.profile := rfl
@[simp] theorem State.clearDirty_inputs : s.clearDirty.inputs = s.inputs := rfl
@[simp] theorem State.clearDirty_ret : s.clearDirty.ret = s.ret := rfl

@[simp] theorem State.pubCopy_lt : s.pubCopy.lt = s.lt := rfl
@[simp] theorem State.pubCopy_ld : s.pubCopy.ld = s.ld := rfl
@[simp] theorem State.pubCopy_frame : s.pubCopy.frame = s.frame := rfl
@[simp] theorem State.pubCopy_pub : s.pubCopy.pub = s.frame := rfl
@[simp] theorem State.pubCopy_nbyte : s.pubCopy.nbyte = s.nbyte := rfl
@[simp] theorem State.pubCopy_nbit : s.pubCopy.nbit = s.nbit := rfl
@[simp] theorem State.pubCopy_dirty : s.pubCopy.dirty = s.dirty := rfl
@[simp] theorem State.pubCopy_cfg : s.pubCopy.cfg = s.cfg := rfl
@[simp] theorem State.pubCopy_profile : s.pubCopy.profile = s.profile := rfl
@[simp] theorem State.pubCopy_inputs : s.pubCopy.inputs = s.inputs := rfl
@[simp] theorem State.pubCopy_ret : s.pubCopy.ret = s.ret := rfl

@[simp] theorem State.writeBit_lt (v : Bool) : (s.writeBit v).lt = s.lt := rfl
@[simp] theorem State.writeBit_ld (v : Bool) : (s.writeBit v).ld = s.ld := rfl
@[simp] theorem State.writeBit_frame (v : Bool) : (s.writeBit v).frame = s.frame.write s.cfg s.nbyte (shiftIn (s.frameByte s.nbyte) v) := rfl
@[simp] theorem State.writeBit_pub (v : Bool) : (s.writeBit v).pub = s.pub := rfl
@[simp] theorem State.writeBit_nbyte (v : Bool) : (s.writeBit v).nbyte = s.nbyte := rfl
@[simp] theorem State.writeBit_nbit (v : Bool) : (s.writeBit v).nbit = s.nbit := rfl
@[simp] theorem State.writeBit_dirty (v : Bool) : (s.writeBit v).dirty = s.dirty := rfl
@[simp] theorem State.writeBit_cfg (v : Bool) : (s.writeBit v).cfg = s.cfg := rfl
@[simp] theorem State.writeBit_profile (v : Bool) : (s.writeBit v).profile = s.profile := rfl
@[simp] theorem State.writeBit_inputs (v : Bool) : (s.writeBit v).inputs = s.inputs := rfl
@[simp] theorem State.writeBit_ret (v : Bool) : (s.writeBit v).ret = s.ret := rfl

@[simp] theorem State.resetCursor_lt : s.resetCursor.lt = s.lt := rfl
@[simp] theorem State.resetCursor_ld : s.resetCursor.ld = s.ld := rfl
@[simp] theorem State.resetCursor_frame : s.resetCursor.frame = s.frame := rfl
@[simp] theorem State.resetCursor_pub : s.resetCursor.pub = s.pub := rfl
@[simp] theorem State.resetCursor_nbyte : s.resetCursor.nbyte = 0 := rfl
@[simp] theorem State.resetCursor_nbit : s.resetCursor.nbit = 0 := rfl
@[simp] theorem State.resetCursor_dirty : s.resetCursor.dirty = s.dirty := rfl
@[simp] theorem State.resetCursor_cfg : s.resetCursor.cfg = s.cfg := rfl
@[simp] theorem State.resetCursor_profile : s.resetCursor.profile = s.profile := rfl
@[simp] theorem State.resetCursor_inputs : s.resetCursor.inputs = s.inputs := rfl
@[simp] theorem State.resetCursor_ret : s.resetCursor.ret = s.ret := rfl

@[simp] theorem State.stamp_lt (v : Level) (t : Nat) : (s.stamp v t).lt = s.lt.set v t := rfl
@[simp] theorem State.stamp_ld (v : Level) (t : Nat) : (s.stamp v t).ld = s.ld.set v.other (s.finishedPulse v t) := rfl
@[simp] theorem State.stamp_frame (v : Level) (t : Nat) : (s.stamp v t).frame = s.frame := rfl
@[simp] theorem State.stamp_pub (v : Level) (t : Nat) : (s.stamp v t).pub = s.pub := rfl
@[simp] theorem State.stamp_nbyte (v : Level) (t : Nat) : (s.stamp v t).nbyte = s.nbyte := rfl
@[simp] theorem State.stamp_nbit (v : Level) (t : Nat) : (s.stamp v t).nbit = s.nbit := rfl
@[simp] theorem State.stamp_dirty (v : Level) (t : Nat) : (s.stamp v t).dirty = s.dirty := rfl
@[simp] theorem State.stamp_cfg (v : Level) (t : Nat) : (s.stamp v t).cfg = s.cfg := rfl
@[simp] theorem State.stamp_profile (v : Level) (t : Nat) : (s.stamp v t).profile = s.profile := rfl
@[simp] theorem State.stamp_inputs (v : Level) (t : Nat) : (s.stamp v t).inputs = s.inputs := rfl
@[simp] theorem State.stamp_ret (v : Level) (t : Nat) : (s.stamp v t).ret = s.ret := rfl

@[simp] theorem State.readAndClear_lt : s.readAndClear.lt = s.lt := rfl
@[simp] theorem State.readAndClear_ld : s.readAndClear.ld = s.ld := rfl
@[simp] theorem State.readAndClear_frame : s.readAndClear.frame = s.frame := rfl
@[simp] theorem State.readAndClear_pub : s.readAndClear.pub = s.pub := rfl
@[simp] theorem State.readAndClear_nbyte : s.readAndClear.nbyte = s.nbyte := rfl
@[simp] theorem State.readAndClear_nbit : s.readAndClear.nbit = s.nbit := rfl
@[simp] theorem State.readAndClear_dirty : s.readAndClear.dirty = false := rfl
@[simp] theorem State.readAndClear_cfg : s.readAndClear.cfg = s.cfg := rfl
@[simp] theorem State.readAndClear_profile : s.readAndClear.profile = s.profile := rfl
@[simp] theorem State.readAndClear_inputs : s.readAndClear.inputs = s.inputs := rfl
@[simp] theorem State.readAndClear_ret : s.readAndClear.ret = .snapshot (s.pub.bytes s.cfg) s.dirty := rfl

@[simp] theorem State.hardReset_lt : s.hardReset.lt = ⟨0, 0⟩ := rfl
@[simp] theorem State.hardReset_ld : s.hardReset.ld = ⟨0, 0⟩ := rfl
@[simp] theorem State.hardReset_frame : s.hardReset.frame = [] := rfl
@[simp] theorem State.hardReset_pub : s.hardReset.pub = [] := rfl
@[simp] theorem State.hardReset_nbyte : s.hardReset.nbyte = 0 := rfl
@[simp] theorem State.hardReset_nbit : s.hardReset.nbit = 0 := rfl
@[simp] theorem State.hardReset_dirty : s.hardReset.dirty = false := rfl
@[simp] theorem State.hardReset_cfg : s.hardReset.cfg = s.cfg := rfl
@[simp] theorem State.hardReset_profile : s.hardReset.profile = s.profile := rfl
@[simp] theorem State.hardReset_inputs : s.hardReset.inputs = s.inputs := rfl
@[simp] theorem State.hardReset_ret : s.hardReset.ret = s.ret := rfl

@[simp] theorem State.sampled_lt : s.sampled.lt = s.lt := rfl
@[simp] theorem State.sampled_ld : s.sampled.ld = s.ld := rfl
@[simp] theorem State.sampled_frame : s.sampled.frame = s.frame := rfl
@[simp] theorem State.sampled_pub : s.sampled.pub = s.pub := rfl
@[simp] theorem State.sampled_nbyte : s.sampled.nbyte = s.nbyte := rfl
@[simp] theorem State.sampled_nbit : s.sampled.nbit = s.nbit := rfl
@[simp] theorem State.sampled_dirty : s.sampled.dirty = s.dirty := rfl
@[simp] theorem State.sampled_cfg : s.sampled.cfg = s.cfg := rfl
@[simp] theorem State.sampled_profile : s.sampled.profile = s.profile := rfl
@[simp] theorem State.sampled_inputs : s.sampled.inputs = s.inputs.tail := rfl
@[simp] theorem State.sampled_ret : s.sampled.ret = s.ret := rfl

@[simp] theorem State.advanceCursor_lt : s.advanceCursor.lt = s.lt := by
  unfold State.advanceCursor; split <;> rfl
@[simp] theorem State.advanceCursor_ld : s.advanceCursor.ld = s.ld := by
  unfold State.advanceCursor; split <;> rfl
@[simp] theorem State.advanceCursor_frame : s.advanceCursor.frame = s.frame := by
  unfold State.advanceCursor; split <;> rfl
@[simp] theorem State.advanceCursor_pub : s.advanceCursor.pub = s.pub := by
  unfold State.advanceCursor; split <;> rfl
@[simp] theorem State.advanceCursor_dirty : s.advanceCursor.dirty = s.dirty := by
  unfold State.advanceCursor; split <;> rfl
@[simp] theorem State.advanceCursor_cfg : s.advanceCursor.cfg = s.cfg := by
  unfold State.advanceCursor; split <;> rfl
@[simp] theorem State.advanceCursor_profile : s.advanceCursor.profile = s.profile := by
  unfold State.advanceCursor; split <;> rfl
@[simp] theorem State.advanceCursor_inputs : s.advanceCursor.inputs = s.inputs := by
  unfold State.advanceCursor; split <;> rfl
@[simp] theorem State.advanceCursor_ret : s.advanceCursor.ret = s.ret := by
  unfold State.advanceCursor; split <;> rfl

@[simp] theorem State.advanceCursor_nbyte :
    s.advanceCursor.nbyte = if s.nbit = 7 then s.nbyte + 1 else s.nbyte := by
  unfold State.advanceCursor; split <;> rfl

@[simp] theorem State.advanceCursor_nbit :
    s.advanceCursor.nbit = if s.nbit = 7 then 0 else s.nbit + 1 := by
  unfold State.advanceCursor; split <;> rfl

@[simp] theorem State.pushBit_lt (v : Bool) : (s.pushBit v).lt = s.lt := by
  unfold State.pushBit; split <;> simp
@[simp] theorem State.pushBit_ld (v : Bool) : (s.pushBit v).ld = s.ld := by
  unfold State.pushBit; split <;> simp
@[simp] theorem State.pushBit_cfg (v : Bool) : (s.pushBit v).cfg = s.cfg := by
  unfold State.pushBit; split <;> simp
@[simp] theorem State.pushBit_profile (v : Bool) : (s.pushBit v).profile = s.profile := by
  unfold State.pushBit; split <;> simp
@[simp] theorem State.pushBit_inputs (v : Bool) : (s.pushBit v).inputs = s.inputs := by
  unfold State.pushBit; split <;> simp
@[simp] theorem State.pushBit_ret (v : Bool) : (s.pushBit v).ret = s.ret := by
  unfold State.pushBit; split <;> simp

@[simp] theorem State.dispatch_lt (sym : Symbol) : (s.dispatch sym).lt = s.lt := by
  cases sym <;> simp [State.dispatch]
@[simp] theorem State.dispatch_ld (sym : Symbol) : (s.dispatch sym).ld = s.ld := by
  cases sym <;> simp [State.dispatch]
@[simp] theorem State.dispatch_cfg (sym : Symbol) : (s.dispatch sym).cfg = s.cfg := by
  cases sym <;> simp [State.dispatch]
@[simp] theorem State.dispatch_profile (sym : Symbol) : (s.dispatch sym).profile = s.profile := by
  cases sym <;> simp [State.dispatch]
@[simp] theorem State.dispatch_inputs (sym : Symbol) : (s.dispatch sym).inputs = s.inputs := by
  cases sym <;> simp [State.dispatch]
@[simp] theorem State.dispatch_ret (sym : Symbol) : (s.dispatch sym).ret = s.ret := by
  cases sym <;> simp [State.dispatch]

@[simp] theorem State.gate_lt (P : CalibrationProfile) (v : Level) : (s.gate P v).lt = s.lt := by
  cases v <;> simp [State.gate]
@[simp] theorem State.gate_ld (P : CalibrationProfile) (v : Level) : (s.gate P v).ld = s.ld := by
  cases v <;> simp [State.gate]
@[simp] theorem State.gate_cfg (P : CalibrationProfile) (v : Level) : (s.gate P v).cfg = s.cfg := by
  cases v <;> simp [State.gate]
@[simp] theorem State.gate_profile (P : CalibrationProfile) (v : Level) : (s.gate P v).profile = s.profile := by
  cases v <;> simp [State.gate]
@[simp] theorem State.gate_inputs (P : CalibrationProfile) (v : Level) : (s.gate P v).inputs = s.inputs := by
  cases v <;> simp [State.gate]
@[simp] theorem State.gate_ret (P : CalibrationProfile) (v : Level) : (s.gate P v).ret = s.ret := by
  cases v <;> simp [State.gate]

end Sys2Proof.Machine
end

