-- ==== Sys2Proof/Laws/Ops.lean ====
section
/-! SUPPORT. One lemma for each shared operation that says everything it can do, and each arm of `exec` on a decoder
as the shared operation it is. -/

namespace Sys2Proof.Machine

/-! ## Operands -/

@[simp] theorem Level.other_low : Level.low.other = .high := rfl
@[simp] theorem Level.other_high : Level.high.other = .low := rfl
@[simp] theorem PerLevel.get_low (r : PerLevel) : r.get .low = r.low := rfl
@[simp] theorem PerLevel.get_high (r : PerLevel) : r.get .high = r.high := rfl
@[simp] theorem PerLevel.set_low (r : PerLevel) (t : Nat) : r.set .low t = ⟨t, r.high⟩ := rfl
@[simp] theorem PerLevel.set_high (r : PerLevel) (t : Nat) : r.set .high t = ⟨r.low, t⟩ := rfl
@[simp] theorem State.finishedPulse_low (t : Nat) (s : State) : s.finishedPulse .low t = t - s.lt.high := rfl
@[simp] theorem State.finishedPulse_high (t : Nat) (s : State) : s.finishedPulse .high t = t - s.lt.low := rfl

theorem inWindow_iff (d : Nat) (w : TimingWindow) : inWindow d w = true ↔ w.min ≤ d ∧ d ≤ w.max := by
  simp [inWindow]

theorem State.tickInOrder_iff (t : Nat) (s : State) :
    s.tickInOrder t = true ↔ s.lt.low ≤ t ∧ s.lt.high ≤ t := by
  simp [State.tickInOrder]

theorem State.full_iff (s : State) : s.full = true ↔ s.cfg.frameBytes ≤ s.nbyte := by
  simp [State.full]

/-! ## PUSH_BIT -/

theorem State.pushBit_of_full {s : State} (v : Bool) (h : s.full = true) : s.pushBit v = s := by
  simp [State.pushBit, h]

/-- Everything a PUSH_BIT that writes does. -/
theorem State.pushBit_of_not_full {s : State} (v : Bool) (h : s.full = false) :
    s.pushBit v =
      { s with
        frame := s.frame.write s.cfg s.nbyte (shiftIn (s.frameByte s.nbyte) v)
        pub := s.frame.write s.cfg s.nbyte (shiftIn (s.frameByte s.nbyte) v)
        nbyte := if s.nbit = 7 then s.nbyte + 1 else s.nbyte
        nbit := if s.nbit = 7 then 0 else s.nbit + 1
        dirty := true } := by
  rw [State.pushBit, if_neg (by simp [h])]
  by_cases h7 : s.nbit = 7
  · rw [State.advanceCursor, if_pos (show (s.writeBit v).nbit = 7 from h7), if_pos h7, if_pos h7]; rfl
  · rw [State.advanceCursor, if_neg (show ¬ (s.writeBit v).nbit = 7 from h7), if_neg h7, if_neg h7]; rfl

/-- PUSH_BIT keeps the frame buffer canonical, published, and the cursor in range. -/
theorem State.pushBit_keeps {s : State} (v : Bool) (hw : s.frame.wellFormed s.cfg = true) (hp : s.pub = s.frame)
    (hc : s.nbyte ≤ s.cfg.frameBytes) (hb : s.nbyte = s.cfg.frameBytes → s.nbit = 0) :
    (s.pushBit v).frame.wellFormed s.cfg = true ∧ (s.pushBit v).pub = (s.pushBit v).frame
      ∧ (s.pushBit v).nbyte ≤ s.cfg.frameBytes
      ∧ ((s.pushBit v).nbyte = s.cfg.frameBytes → (s.pushBit v).nbit = 0) := by
  by_cases hf : s.full = true
  · rw [State.pushBit_of_full v hf]; exact ⟨hw, hp, hc, hb⟩
  · have hlt : s.nbyte < s.cfg.frameBytes := by
      rw [State.full_iff] at hf; omega
    rw [State.pushBit_of_not_full v (by simpa using hf)]
    refine ⟨Memory.write_wellFormed hw hlt, rfl, ?_, ?_⟩
    · dsimp only; split <;> omega
    · dsimp only
      split
      · intro _; rfl
      · intro h; omega

/-- Everything dispatching a symbol can do (R86): write a bit, reset the cursor, or nothing. -/
theorem State.dispatch_cases (sym : Symbol) (s : State) :
    (sym.code.getLsbD 1 = true ∧ ∃ v, s.dispatch sym = s.pushBit v) ∨
    (sym = .frameReset ∧ s.dispatch sym = s.resetCursor) ∨ (sym = .noSym ∧ s.dispatch sym = s) := by
  cases sym
  · exact .inr (.inr ⟨rfl, rfl⟩)
  · exact .inr (.inl ⟨rfl, rfl⟩)
  · exact .inl ⟨rfl, false, rfl⟩
  · exact .inl ⟨rfl, true, rfl⟩

/-! ## `on_transition` -/

/-- Everything a transition can do. -/
theorem State.onTransition_cases {P : CalibrationProfile} {v : Level} {t : Nat} {s : State} :
    (s.lt.low ≤ t ∧ s.lt.high ≤ t ∧ s.onTransition P v t = .next ((s.stamp v t).gate P v)) ∨
    (¬ (s.lt.low ≤ t ∧ s.lt.high ≤ t) ∧ s.onTransition P v t = .refused .tickDecreased) := by
  unfold State.onTransition
  by_cases h : s.tickInOrder t = true
  · exact .inl ⟨((State.tickInOrder_iff t s).1 h).1, ((State.tickInOrder_iff t s).1 h).2, by rw [if_pos h]⟩
  · exact .inr ⟨fun h' => h ((State.tickInOrder_iff t s).2 h'), by rw [if_neg h]⟩

theorem State.onTransition_of_inOrder (P : CalibrationProfile) (v : Level) {t : Nat} {s : State}
    (h : s.lt.low ≤ t ∧ s.lt.high ≤ t) : s.onTransition P v t = .next ((s.stamp v t).gate P v) := by
  rw [State.onTransition, if_pos ((State.tickInOrder_iff t s).2 h)]

/-! ## The decoder -/

theorem State.onDecoder_some {s : State} {P : CalibrationProfile} (h : s.profile = some P)
    (k : CalibrationProfile → Result) : s.onDecoder k = k P := by
  simp [State.onDecoder, h]

theorem State.onDecoder_none {s : State} (h : s.profile = none) (k : CalibrationProfile → Result) :
    s.onDecoder k = .refused .noDecoder := by
  simp [State.onDecoder, h]

theorem State.onDecoder_next {s t : State} {k : CalibrationProfile → Result} (h : s.onDecoder k = .next t) :
    ∃ P, s.profile = some P ∧ k P = .next t := by
  unfold State.onDecoder at h
  split at h
  · next P hP => exact ⟨P, hP, h⟩
  · cases h

/-! ## The arms of `exec` on a decoder -/

section
variable {s : State} {P : CalibrationProfile} (h : s.profile = some P)
include h

theorem exec_reset : exec .reset s = .next s.hardReset := State.onDecoder_some h _
theorem exec_idle : exec .idle s = .next s := State.onDecoder_some h _
theorem exec_fall (t : Nat) : exec (.fall t) s = s.onTransition P .low t := State.onDecoder_some h _
theorem exec_rise (t : Nat) : exec (.rise t) s = s.onTransition P .high t := State.onDecoder_some h _
theorem exec_read : exec .read s = .next s.readAndClear := State.onDecoder_some h _
theorem exec_readFall (t : Nat) : exec (.readFall t) s = s.readAndClear.onTransition P .low t :=
  State.onDecoder_some h _
theorem exec_readRise (t : Nat) : exec (.readRise t) s = s.readAndClear.onTransition P .high t :=
  State.onDecoder_some h _
theorem exec_symNone : exec .symNone s = .next (s.dispatch .noSym) := State.onDecoder_some h _
theorem exec_symFrameReset : exec .symFrameReset s = .next (s.dispatch .frameReset) := State.onDecoder_some h _
theorem exec_symBit0 : exec .symBit0 s = .next (s.dispatch .bit0) := State.onDecoder_some h _
theorem exec_symBit1 : exec .symBit1 s = .next (s.dispatch .bit1) := State.onDecoder_some h _
theorem exec_instr (sym : Symbol) : exec sym.instr s = .next (s.dispatch sym) := by
  cases sym <;> exact State.onDecoder_some h _
theorem exec_classify :
    exec .classify s = .next { s with ret := .symbol (classify s.ld.low s.ld.high P) } := State.onDecoder_some h _
theorem exec_pushBit (v : Bool) : exec (.pushBit v) s = .next (s.pushBit v) := State.onDecoder_some h _
theorem exec_resetCursor : exec .resetCursor s = .next s.resetCursor := State.onDecoder_some h _

end

/-- Everything CALIBRATE can do. -/
theorem calibrate_ok_iff {c : Config} {P : CalibrationProfile} :
    calibrate c = .ok P ↔ ∃ f, 1 ≤ f ∧ c.fHz = some f ∧ c.withinSpec = true
      ∧ (profileFor c f).fits c.tickW = true ∧ P = profileFor c f := by
  unfold calibrate raiseCalibrationError
  constructor
  · intro h
    split at h
    · cases h
    · cases h
    · next f hf =>
      split at h
      · next hw =>
        split at h
        · next hfit => cases h; exact ⟨f + 1, by omega, hf, hw, hfit, rfl⟩
        · cases h
      · cases h
  · rintro ⟨f, h1, hf, hw, hfit, rfl⟩
    obtain ⟨g, rfl⟩ : ∃ g, f = g + 1 := ⟨f - 1, by omega⟩
    simp only [hf, hw, hfit, if_true]

theorem exec_calibrate_ok {s : State} {P : CalibrationProfile} (h : calibrate s.cfg = .ok P) :
    exec .calibrate s = .next { s with profile := some P } := by
  simp [exec, execCalibrate, h]

/-- Everything an operation that answers a next state has done. -/
theorem exec_next_cases {i : Instr} {s t : State} (h : exec i s = .next t) :
    (i = .calibrate ∧ ∃ P, calibrate s.cfg = .ok P ∧ t = { s with profile := some P }) ∨
    (∃ P, s.profile = some P ∧
      ((i = .reset ∧ t = s.hardReset) ∨
       (i = .read ∧ t = s.readAndClear) ∨
       (i = .classify ∧ t = { s with ret := .symbol (classify s.ld.low s.ld.high P) }) ∨
       (i = .resetCursor ∧ t = s.resetCursor) ∨
       (i = .idle ∧ t = s) ∨
       (∃ v, i = .pushBit v ∧ t = s.pushBit v) ∨
       (∃ sym : Symbol, i = sym.instr ∧ t = s.dispatch sym) ∨
       (∃ k, (i = .fall k ∧ s.lt.low ≤ k ∧ s.lt.high ≤ k ∧ t = s.stamp .low k)) ∨
       (∃ k, (i = .rise k ∧ s.lt.low ≤ k ∧ s.lt.high ≤ k ∧ t = (s.stamp .high k).gate P .high)) ∨
       (∃ k, (i = .readFall k ∧ s.lt.low ≤ k ∧ s.lt.high ≤ k ∧ t = s.readAndClear.stamp .low k)) ∨
       (∃ k, (i = .readRise k ∧ s.lt.low ≤ k ∧ s.lt.high ≤ k
          ∧ t = (s.readAndClear.stamp .high k).gate P .high)))) := by
  have tr : ∀ {P : CalibrationProfile} {v : Level} {k : Nat} {u : State}, u.onTransition P v k = .next t →
      u.lt.low ≤ k ∧ u.lt.high ≤ k ∧ t = (u.stamp v k).gate P v := by
    intro P v k u hu
    obtain ⟨h1, h2, h3⟩ | ⟨-, h3⟩ := State.onTransition_cases (P := P) (v := v) (t := k) (s := u)
    · rw [h3] at hu; cases hu; exact ⟨h1, h2, rfl⟩
    · rw [h3] at hu; cases hu
  cases i with
  | calibrate =>
    simp only [exec, execCalibrate] at h
    split at h
    · next P hP => cases h; exact .inl ⟨rfl, P, hP, rfl⟩
    · cases h
  | reset =>
    obtain ⟨P, hP, hk⟩ := State.onDecoder_next h; cases hk; exact .inr ⟨P, hP, by simp⟩
  | idle =>
    obtain ⟨P, hP, hk⟩ := State.onDecoder_next h; cases hk; exact .inr ⟨P, hP, by simp⟩
  | read =>
    obtain ⟨P, hP, hk⟩ := State.onDecoder_next h; cases hk; exact .inr ⟨P, hP, by simp⟩
  | classify =>
    obtain ⟨P, hP, hk⟩ := State.onDecoder_next h; cases hk; exact .inr ⟨P, hP, by simp⟩
  | resetCursor =>
    obtain ⟨P, hP, hk⟩ := State.onDecoder_next h; cases hk; exact .inr ⟨P, hP, by simp⟩
  | pushBit v =>
    obtain ⟨P, hP, hk⟩ := State.onDecoder_next h; cases hk; exact .inr ⟨P, hP, by simp⟩
  | symNone =>
    obtain ⟨P, hP, hk⟩ := State.onDecoder_next h; cases hk
    exact .inr ⟨P, hP, by right; right; right; right; right; right; left; exact ⟨.noSym, rfl, rfl⟩⟩
  | symFrameReset =>
    obtain ⟨P, hP, hk⟩ := State.onDecoder_next h; cases hk
    exact .inr ⟨P, hP, by right; right; right; right; right; right; left; exact ⟨.frameReset, rfl, rfl⟩⟩
  | symBit0 =>
    obtain ⟨P, hP, hk⟩ := State.onDecoder_next h; cases hk
    exact .inr ⟨P, hP, by right; right; right; right; right; right; left; exact ⟨.bit0, rfl, rfl⟩⟩
  | symBit1 =>
    obtain ⟨P, hP, hk⟩ := State.onDecoder_next h; cases hk
    exact .inr ⟨P, hP, by right; right; right; right; right; right; left; exact ⟨.bit1, rfl, rfl⟩⟩
  | fall k =>
    obtain ⟨P, hP, hk⟩ := State.onDecoder_next h
    obtain ⟨h1, h2, rfl⟩ := tr hk
    exact .inr ⟨P, hP, by simp_all [State.gate]⟩
  | rise k =>
    obtain ⟨P, hP, hk⟩ := State.onDecoder_next h
    obtain ⟨h1, h2, rfl⟩ := tr hk
    exact .inr ⟨P, hP, by simp_all⟩
  | readFall k =>
    obtain ⟨P, hP, hk⟩ := State.onDecoder_next h
    obtain ⟨h1, h2, rfl⟩ := tr hk
    exact .inr ⟨P, hP, by simp_all [State.gate]⟩
  | readRise k =>
    obtain ⟨P, hP, hk⟩ := State.onDecoder_next h
    obtain ⟨h1, h2, rfl⟩ := tr hk
    exact .inr ⟨P, hP, by simp_all⟩

end Sys2Proof.Machine
end

