-- ==== Sys2Proof/Laws/Calibration.lean ====
section
/-! SUPPORT. The default configuration and the profile that CALIBRATE computes for it, with its constants evaluated. -/

namespace Sys2Proof

section
variable (rows cols : Nat) (fHz : Option Nat)

@[simp] theorem Config.withDefaults_fHz : (Config.withDefaults rows cols fHz).fHz = fHz := rfl
@[simp] theorem Config.withDefaults_t0hNs : (Config.withDefaults rows cols fHz).t0hNs = 400 := rfl
@[simp] theorem Config.withDefaults_t0lNs : (Config.withDefaults rows cols fHz).t0lNs = 850 := rfl
@[simp] theorem Config.withDefaults_t1hNs : (Config.withDefaults rows cols fHz).t1hNs = 800 := rfl
@[simp] theorem Config.withDefaults_t1lNs : (Config.withDefaults rows cols fHz).t1lNs = 450 := rfl
@[simp] theorem Config.withDefaults_tolNs : (Config.withDefaults rows cols fHz).tolNs = 150 := rfl
@[simp] theorem Config.withDefaults_tresetNs : (Config.withDefaults rows cols fHz).tresetNs = 50000 := rfl
@[simp] theorem Config.withDefaults_tickW : (Config.withDefaults rows cols fHz).tickW = 64 := rfl
@[simp] theorem Config.withDefaults_frameBytes :
    (Config.withDefaults rows cols fHz).frameBytes = rows * cols * 3 := rfl

theorem Config.withDefaults_withinSpec (hr : 1 ≤ rows) (hc : 1 ≤ cols) :
    (Config.withDefaults rows cols fHz).withinSpec = true := by
  have hl : (Config.withDefaults rows cols fHz).frameInit.length = rows * cols * 3 := List.length_replicate
  simp [Config.withinSpec, hl]
  exact ⟨hr, hc⟩

/-- The nine values of R20 under the source's constants (R4), as functions of the frequency. -/
theorem profileFor_withDefaults (f : Nat) :
    profileFor (Config.withDefaults rows cols fHz) f =
      { zero :=
          { low := ⟨700 * f / 1000000000 + 1, 1000 * f / 1000000000⟩
            high := ⟨250 * f / 1000000000 + 1, 550 * f / 1000000000⟩ }
        one :=
          { low := ⟨300 * f / 1000000000 + 1, 600 * f / 1000000000⟩
            high := ⟨650 * f / 1000000000 + 1, 950 * f / 1000000000⟩ }
        resetThreshold := 50000 * f / 1000000000 + 1 } := by
  simp only [profileFor, calibratedWindow, ticksFloor, Config.withDefaults, Nat.reduceAdd, Nat.reduceSub]

end

end Sys2Proof
end

