-- ==== Sys2Proof/Laws/Decode.lean ====
section
/-! SUPPORT. The byte image of a port sample, and what every command word decodes to. -/

namespace Sys2Proof

@[simp] theorem leBytes_length (n v : Nat) : (leBytes n v).length = n := by
  induction n generalizing v with
  | zero => rfl
  | succ n ih => simp [leBytes, ih]

/-- The bytes of a number spell that number, where they are enough for it. -/
theorem leValue_leBytes (n : Nat) {v : Nat} (h : v < 2 ^ (8 * n)) : leValue (leBytes n v) = v := by
  induction n generalizing v with
  | zero => simp at h; simp [leBytes, leValue, h]
  | succ n ih =>
    have hp : 2 ^ (8 * (n + 1)) = 256 * 2 ^ (8 * n) := by rw [Nat.mul_add, Nat.pow_add]; ring
    have hd : v / 256 < 2 ^ (8 * n) := by rw [hp] at h; exact Nat.div_lt_of_lt_mul h
    simp only [leBytes, leValue, ih hd, BitVec.toNat_ofNat]
    omega

/-- A tick that fits its port fits the bytes of its image. -/
theorem tick_fits_bytes {tickW t : Nat} (h : t < 2 ^ tickW) : t < 2 ^ (8 * tickBytes tickW) :=
  lt_of_lt_of_le h (Nat.pow_le_pow_right (by norm_num) (by unfold tickBytes; omega))

/-- A port sample whose tick fits its port is the sample of its byte image. -/
theorem sampleOfBytes_bytesOfSample {tickW : Nat} {p : PortSample} (h : p.tick < 2 ^ tickW) :
    sampleOfBytes tickW (bytesOfSample tickW p) = .ok p := by
  have hc := p.cmd.isLt
  have hb : (BitVec.ofNat 8 p.cmd.toNat).toNat = p.cmd.toNat := by
    rw [BitVec.toNat_ofNat, Nat.mod_eq_of_lt (by omega)]
  have hv := leValue_leBytes (tickBytes tickW) (tick_fits_bytes h)
  unfold bytesOfSample sampleOfBytes
  dsimp only
  rw [if_neg (by rw [hb]; omega), if_neg (by simp), if_neg (by rw [hv]; omega), hv, hb]
  simp

/-- Everything a command word can decode to. -/
theorem decodeCmd_cases (c : BitVec 4) (t : Nat) :
    decodeCmd c t ∈ [Instr.reset, .idle, .fall t, .rise t, .read, .readFall t, .readRise t] := by
  unfold decodeCmd
  cases c.getLsbD 3 <;> cases c.getLsbD 2 <;> cases c.getLsbD 1 <;> cases c.getLsbD 0 <;> simp

theorem sampledTick_lt (tickW : Nat) (p : PortSample) : sampledTick tickW p < 2 ^ tickW :=
  Nat.mod_lt _ (by positivity)

theorem sampledTick_of_lt {tickW : Nat} {p : PortSample} (h : p.tick < 2 ^ tickW) :
    sampledTick tickW p = p.tick := Nat.mod_eq_of_lt h

/-- Whatever stands at the ports is a well-formed command. -/
theorem decodePort_wellFormed (tickW : Nat) (p : PortSample) :
    (decodePort tickW p).isCommand = true ∧ (decodePort tickW p).wellFormed tickW = true := by
  have h := decodeCmd_cases p.cmd (sampledTick tickW p)
  have ht := sampledTick_lt tickW p
  unfold decodePort
  simp only [List.mem_cons, List.not_mem_nil, or_false] at h
  rcases h with h | h | h | h | h | h | h <;> rw [h] <;> simp [Instr.isCommand, Instr.wellFormed, tickFits, ht]

end Sys2Proof
end

