-- ==== Sys2Proof/Laws/PerInstr.lean ====
section
/-! SUPPORT. A statement about every operation as syntax: the sample that encodes it, if any, decodes back to it. -/

namespace Sys2Proof.Laws.CommandWord

/-- An operation has a port sample exactly when it is a command, and that sample, where the tick fits its port,
decodes to the operation (R47, R48, R54, R60). -/
def Statement (i : Instr) : Prop :=
  (encode i).isSome = i.isCommand ∧
  ∀ (tickW : Nat) (p : PortSample), i.wellFormed tickW = true → encode i = some p →
    p.tick < 2 ^ tickW ∧ decodePort tickW p = i

/-- The operations without a tick operand. -/
theorem of_constant {i : Instr} {c : BitVec 4} (hc : i.isCommand = true) (he : encode i = some ⟨c, 0⟩)
    (hd : ∀ t, decodeCmd c t = i) : Statement i := by
  refine ⟨by rw [he, hc]; rfl, fun tickW p _ hp => ?_⟩
  rw [he] at hp
  cases hp
  exact ⟨by positivity, hd _⟩

/-- The operations with a tick operand. -/
theorem of_tick {i : Instr} {c : BitVec 4} {t : Nat} (hc : i.isCommand = true) (he : encode i = some ⟨c, t⟩)
    (hw : ∀ tickW, i.wellFormed tickW = tickFits tickW t) (hd : decodeCmd c t = i) : Statement i := by
  refine ⟨by rw [he, hc]; rfl, fun tickW p hwf hp => ?_⟩
  rw [hw] at hwf
  rw [he] at hp
  cases hp
  have ht : t < 2 ^ tickW := by simpa [tickFits] using hwf
  exact ⟨ht, by rw [decodePort, sampledTick_of_lt ht]; exact hd⟩

/-- The operations without a word. -/
theorem of_none {i : Instr} (hc : i.isCommand = false) (he : encode i = none) : Statement i :=
  ⟨by rw [he, hc]; rfl, fun _ _ _ hp => by rw [he] at hp; cases hp⟩

theorem reset : Statement .reset := of_constant rfl rfl fun _ => rfl
theorem idle : Statement .idle := of_constant rfl rfl fun _ => rfl
theorem fall (t : Nat) : Statement (.fall t) := of_tick rfl rfl (fun _ => rfl) rfl
theorem rise (t : Nat) : Statement (.rise t) := of_tick rfl rfl (fun _ => rfl) rfl
theorem read : Statement .read := of_constant rfl rfl fun _ => rfl
theorem readFall (t : Nat) : Statement (.readFall t) := of_tick rfl rfl (fun _ => rfl) rfl
theorem readRise (t : Nat) : Statement (.readRise t) := of_tick rfl rfl (fun _ => rfl) rfl
theorem symNone : Statement .symNone := of_none rfl rfl
theorem symFrameReset : Statement .symFrameReset := of_none rfl rfl
theorem symBit0 : Statement .symBit0 := of_none rfl rfl
theorem symBit1 : Statement .symBit1 := of_none rfl rfl
theorem calibrate : Statement .calibrate := of_none rfl rfl
theorem classify : Statement .classify := of_none rfl rfl
theorem pushBit (value : Bool) : Statement (.pushBit value) := of_none rfl rfl
theorem resetCursor : Statement .resetCursor := of_none rfl rfl

end Sys2Proof.Laws.CommandWord
end

