-- ==== Sys2Proof/Laws/Step.lean ====
section
/-! SUPPORT. What one step can do, and sequences of operations. -/

namespace Sys2Proof.Machine

theorem step_of_none {s : State} (h : s.profile = none) : step s = exec .calibrate s := by
  simp [step, h]

theorem step_of_some {s : State} {P : CalibrationProfile} (h : s.profile = some P) :
    step s = exec s.presented s.sampled := by
  simp [step, h]

theorem State.presented_nil {s : State} (h : s.inputs = []) : s.presented = .idle := by
  simp [State.presented, h]

theorem State.presented_cons {s : State} {p : PortSample} {rest : List PortSample} (h : s.inputs = p :: rest) :
    s.presented = decodePort s.cfg.tickW p := by
  simp [State.presented, h]

theorem State.sampled_cons {s : State} {p : PortSample} {rest : List PortSample} (h : s.inputs = p :: rest) :
    s.sampled = { s with inputs := rest } := by
  simp [State.sampled, h]

theorem step_cons {s : State} {P : CalibrationProfile} (h : s.profile = some P) {p : PortSample}
    {rest : List PortSample} (hi : s.inputs = p :: rest) :
    step s = exec (decodePort s.cfg.tickW p) { s with inputs := rest } := by
  rw [step_of_some h, State.presented_cons hi, State.sampled_cons hi]

/-- What a decoder is presented is a well-formed command. -/
theorem State.presented_wellFormed (s : State) :
    s.presented.isCommand = true ∧ s.presented.wellFormed s.cfg.tickW = true := by
  unfold State.presented
  split
  · exact ⟨rfl, rfl⟩
  · exact decodePort_wellFormed _ _

/-! ## The buffer, the cursor and the flag -/

/-- What `t` shows of the buffer, the cursor and the flag after an operation on `s` that writes a bit (`w`), resets the
cursor (`c`), restores the buffer (`r`) or clears the flag (`f`). -/
structure BufferStep (s t : State) (w c r f : Bool) : Prop where
  written : w = true → ∃ v : Bool, s.full = false ∧ c = false ∧ t.frame = (s.pushBit v).frame
    ∧ t.pub = (s.pushBit v).pub ∧ t.nbyte = (s.pushBit v).nbyte ∧ t.nbit = (s.pushBit v).nbit ∧ t.dirty = true
  unwritten : w = false → t.dirty = (s.dirty && !f) ∧ (r = false → t.frame = s.frame ∧ t.pub = s.pub)
  reset : c = true → w = false ∧ t.nbyte = 0 ∧ t.nbit = 0
  kept : w = false → c = false → t.nbyte = s.nbyte ∧ t.nbit = s.nbit

/-- An operation that only clears the flag, if even that. -/
theorem BufferStep.of_kept {s t : State} {r f : Bool} (hf : t.frame = s.frame) (hp : t.pub = s.pub)
    (hn : t.nbyte = s.nbyte) (hb : t.nbit = s.nbit) (hd : t.dirty = (s.dirty && !f)) :
    BufferStep s t false false r f :=
  ⟨by simp, fun _ => ⟨hd, fun _ => ⟨hf, hp⟩⟩, by simp, fun _ _ => ⟨hn, hb⟩⟩

/-- An operation that pushes a bit. -/
theorem BufferStep.of_pushBit (s : State) (v f : Bool) (hf : f = false) :
    BufferStep s (s.pushBit v) (!s.full) false false f := by
  subst hf
  cases hfull : s.full
  · refine ⟨fun _ => ⟨v, hfull, rfl, rfl, rfl, rfl, rfl, ?_⟩, by simp, by simp, by simp⟩
    rw [State.pushBit_of_not_full v hfull]
  · rw [State.pushBit_of_full v hfull]
    exact .of_kept rfl rfl rfl rfl (by simp)

/-- The action of a symbol on `u`, which shows the buffer and the cursor of `s`, and its flag but for a READ. -/
theorem BufferStep.of_dispatch {s u : State} (sym : Symbol) {f : Bool} (hc : u.cfg = s.cfg) (hfr : u.frame = s.frame)
    (hp : u.pub = s.pub) (hn : u.nbyte = s.nbyte) (hb : u.nbit = s.nbit) (hd : u.dirty = (s.dirty && !f)) :
    BufferStep s (u.dispatch sym) (sym.code.getLsbD 1 && !s.full) (decide (sym = .frameReset)) false f := by
  have hfull : u.full = s.full := by simp [State.full, hc, hn]
  obtain ⟨hw, v, he⟩ | ⟨rfl, he⟩ | ⟨rfl, he⟩ := State.dispatch_cases sym u
  · have hne : sym ≠ .frameReset := by rintro rfl; cases hw
    rw [he, hw, decide_eq_false hne]
    cases h : s.full
    · have hu : u.full = false := hfull.trans h
      rw [State.pushBit_of_not_full v hu]
      refine ⟨fun _ => ⟨v, h, rfl, ?_⟩, by simp, by simp, by simp⟩
      rw [State.pushBit_of_not_full v h]
      simp [State.frameByte, hc, hfr, hn, hb]
    · rw [State.pushBit_of_full v (hfull.trans h)]
      exact .of_kept hfr hp hn hb hd
  · rw [he]
    exact ⟨by simp [Symbol.code], fun _ => ⟨hd, fun _ => ⟨hfr, hp⟩⟩, fun _ => ⟨by simp [Symbol.code], rfl, rfl⟩, by simp⟩
  · rw [he]
    exact .of_kept hfr hp hn hb hd

/-- Everything an operation that answers a next state does to the buffer, the cursor and the flag. -/
theorem exec_bufferStep {i : Instr} {s t : State} (h : exec i s = .next t) :
    BufferStep s t (s.writesBit i) (s.resetsCursor i) (decide (i = .reset)) (clearsFlag i) := by
  obtain ⟨rfl, P, -, rfl⟩ | ⟨P, hP, h'⟩ := exec_next_cases h
  · exact .of_kept rfl rfl rfl rfl (by simp [clearsFlag])
  · rcases h' with ⟨rfl, rfl⟩ | ⟨rfl, rfl⟩ | ⟨rfl, rfl⟩ | ⟨rfl, rfl⟩ | ⟨rfl, rfl⟩ | ⟨v, rfl, rfl⟩ | ⟨sym, rfl, rfl⟩ |
      ⟨k, rfl, -, -, rfl⟩ | ⟨k, rfl, -, -, rfl⟩ | ⟨k, rfl, -, -, rfl⟩ | ⟨k, rfl, -, -, rfl⟩
    · exact ⟨by simp [State.writesBit], by simp [clearsFlag], fun _ => ⟨rfl, rfl, rfl⟩,
        by simp [State.resetsCursor]⟩
    · exact .of_kept rfl rfl rfl rfl (by simp [clearsFlag])
    · exact .of_kept rfl rfl rfl rfl (by simp [clearsFlag])
    · exact .of_dispatch (u := s) .frameReset rfl rfl rfl rfl rfl (by simp [clearsFlag])
    · exact .of_kept rfl rfl rfl rfl (by simp [clearsFlag])
    · exact .of_pushBit s v _ rfl
    · have hstep := BufferStep.of_dispatch (s := s) (u := s) (f := false) sym rfl rfl rfl rfl rfl (by simp)
      cases sym <;> simpa [Symbol.code, Symbol.instr, State.writesBit, State.resetsCursor, clearsFlag] using hstep
    · exact .of_kept rfl rfl rfl rfl (by simp [clearsFlag])
    · simpa [State.writesBit, State.resetsCursor, State.riseWritesBit, State.riseResetsCursor, State.gate,
        hP, clearsFlag] using
        BufferStep.of_dispatch (s := s) (u := s.stamp .high k) (f := false)
          (classify (k - s.lt.low) s.ld.high P) rfl rfl rfl rfl rfl (by simp)
    · exact .of_kept rfl rfl rfl rfl (by simp [clearsFlag])
    · simpa [State.writesBit, State.resetsCursor, State.riseWritesBit, State.riseResetsCursor, State.gate,
        hP, clearsFlag] using
        BufferStep.of_dispatch (s := s) (u := s.readAndClear.stamp .high k) (f := true)
          (classify (k - s.lt.low) s.ld.high P) rfl rfl rfl rfl rfl (by simp)

/-! ## Sequences of operations -/

@[simp] theorem execAll_nil (s : State) : execAll [] s = .next s := rfl

theorem execAll_cons_next {i : Instr} {s t : State} (h : exec i s = .next t) (is : List Instr) :
    execAll (i :: is) s = execAll is t := by
  simp [execAll, h]

theorem execAll_cons_refused {i : Instr} {s : State} {r : Refusal} (h : exec i s = .refused r) (is : List Instr) :
    execAll (i :: is) s = .refused r := by
  simp [execAll, h]

theorem execAll_one (i : Instr) (s : State) : execAll [i] s = exec i s := by
  simp only [execAll]; split <;> simp_all

theorem execAll_append {is js : List Instr} {s t : State} (h : execAll is s = .next t) :
    execAll (is ++ js) s = execAll js t := by
  induction is generalizing s with
  | nil => cases h; rfl
  | cons i rest ih =>
    simp only [execAll, List.cons_append] at h ⊢
    split at h
    · next hu => exact ih h
    · cases h
    · cases h

/-- A property that every operation keeps holds after a sequence of operations. -/
theorem execAll_induct {motive : State → Prop} {is : List Instr} {s t : State}
    (hstep : ∀ i ∈ is, ∀ u v : State, motive u → exec i u = .next v → motive v) (h0 : motive s)
    (h : execAll is s = .next t) : motive t := by
  induction is generalizing s with
  | nil => cases h; exact h0
  | cons i rest ih =>
    simp only [execAll] at h
    split at h
    · next u hu =>
      exact ih (fun j hj => hstep j (List.mem_cons_of_mem _ hj)) (hstep i List.mem_cons_self _ _ h0 hu) h
    · cases h
    · cases h

/-- A sequence that has a next state has one after each of its operations. -/
theorem execAll_cons_inv {i : Instr} {is : List Instr} {s t : State} (h : execAll (i :: is) s = .next t) :
    ∃ u, exec i s = .next u ∧ execAll is u = .next t := by
  simp only [execAll] at h
  split at h
  · next u hu => exact ⟨u, hu, h⟩
  · cases h
  · cases h

end Sys2Proof.Machine
end

