-- ==== Sys2Proof/Tests/Slice0.lean ====
section
/-! SUPPORT. Tests of the model, with results taken from spec/95_test_vectors.md (V40 to V44, V70) or worked out from
the encodings of spec/30_encoding.md, and for each obligation that has hypotheses a witness that meets them. -/

namespace Sys2Proof.Tests

open Sys2Proof.Machine

/-! ## Helpers -/

/-- The profile at 16 MHz as row V40-1 writes it. -/
def P16 : CalibrationProfile where
  zero := { low := ⟨12, 16⟩, high := ⟨5, 8⟩ }
  one := { low := ⟨5, 9⟩, high := ⟨11, 15⟩ }
  resetThreshold := 801

/-- A published state of the three-byte decoder at 16 MHz. -/
def at16 (lt ld : PerLevel) (frame : Memory) (nbyte : Nat) (nbit : BitVec 3) (dirty : Bool) : State :=
  { State.reset with
    lt := lt, ld := ld, frame := frame, pub := frame, nbyte := nbyte, nbit := nbit, dirty := dirty }

/-- The frame `[0xFF, 0xFF, 0xFF]`. -/
def allOnes : Memory := [(0, 0xFF), (1, 0xFF), (2, 0xFF)]

/-- A state in the middle of things: two bits written, a high pulse of 12 ticks under way to its low. -/
def busy : State := at16 ⟨851, 839⟩ ⟨7, 12⟩ [(0, 0x03)] 0 2 true

/-- A state with the buffer full. -/
def full : State := at16 ⟨1269, 1257⟩ ⟨7, 12⟩ allOnes 3 0 false

/-- The decoder at another frequency, or with no profile yet. -/
def uncalibrated (fHz : Option Nat) : State :=
  { State.reset with cfg := Config.withDefaults 1 1 fHz, profile := none }

/-- The outcome is a next state with a property. -/
def nextWith (r : Result) (p : State → Bool) : Bool :=
  match r with
  | .next t => p t
  | .fault _ => false
  | .refused _ => false

/-- The outcome is this refusal. -/
def refusedWith (r : Result) (why : Refusal) : Bool :=
  match r with
  | .next _ => false
  | .fault _ => false
  | .refused q => decide (q = why)

/-! ## WellFormed: each check refuses an ill-formed term (R55 b) -/

theorem test_wf_fall_tick_too_wide : (Instr.fall (2 ^ 64)).wellFormed 64 = false := by decide
theorem test_wf_rise_tick_too_wide : (Instr.rise (2 ^ 64)).wellFormed 64 = false := by decide
theorem test_wf_readFall_tick_too_wide : (Instr.readFall (2 ^ 64)).wellFormed 64 = false := by decide
theorem test_wf_readRise_tick_too_wide : (Instr.readRise (2 ^ 64)).wellFormed 64 = false := by decide
theorem test_wf_widest_tick : (Instr.readRise (2 ^ 64 - 1)).wellFormed 64 = true := by decide

/-! ## Decoding: words written out bit by bit from R48 `{rst, rd_req, ev_valid, ev_level}` and R54 -/

theorem test_decode_reset :
    decodePort 64 ⟨0b1000, 7⟩ = .reset ∧ decodePort 64 ⟨0b1111, 7⟩ = .reset := by decide
theorem test_decode_idle : decodePort 64 ⟨0b0000, 7⟩ = .idle ∧ decodePort 64 ⟨0b0001, 7⟩ = .idle := by decide
theorem test_decode_fall : decodePort 64 ⟨0b0010, 1006⟩ = .fall 1006 := by decide
theorem test_decode_rise : decodePort 64 ⟨0b0011, 1020⟩ = .rise 1020 := by decide
theorem test_decode_read : decodePort 64 ⟨0b0100, 7⟩ = .read ∧ decodePort 64 ⟨0b0101, 7⟩ = .read := by decide
theorem test_decode_readFall : decodePort 64 ⟨0b0110, 851⟩ = .readFall 851 := by decide
theorem test_decode_readRise : decodePort 64 ⟨0b0111, 839⟩ = .readRise 839 := by decide
theorem test_decode_symNone : (decodeSym 0b00).instr = .symNone := by decide
theorem test_decode_symFrameReset : (decodeSym 0b01).instr = .symFrameReset := by decide
theorem test_decode_symBit0 : (decodeSym 0b10).instr = .symBit0 := by decide
theorem test_decode_symBit1 : (decodeSym 0b11).instr = .symBit1 := by decide

/-- CALIBRATE, CLASSIFY, PUSH_BIT and RESET_CURSOR have no word (R60). -/
theorem test_no_word :
    encode .calibrate = none ∧ encode .classify = none ∧ encode (.pushBit true) = none
      ∧ encode .resetCursor = none := by decide

/-- RISE @1020 as bytes: the command `0011`, then 1020 = 0x3FC, low byte first. -/
theorem test_decode_bytes_rise : (decodeBytes 64 [0x03, 0xFC, 0x03, 0, 0, 0, 0, 0, 0]).toOption = some (.rise 1020) := by
  decide

/-- Bytes that are no port sample are rejected, each by its name. -/
theorem test_decode_bytes_rejected :
    sampleOfBytes 8 [] = .error .noCommandWord ∧ sampleOfBytes 8 [0x10, 0] = .error .bitsAboveCommand
      ∧ sampleOfBytes 8 [0x02] = .error .tickLength ∧ sampleOfBytes 4 [0x02, 0x10] = .error .tickTooWide :=
  ⟨rfl, rfl, rfl, rfl⟩

/-- The table's CMD words in the host's numbering. -/
theorem test_decode_table_words :
    [0x8, 0x0, 0x2, 0x3, 0x4, 0x6, 0x7].map (decodeTableWord 8)
      = [some .reset, some .idle, some (.fall 0), some (.rise 0), some .read, some (.readFall 0),
         some (.readRise 0)] := by decide

/-- READ, placed at the next clock edge after reset, runs as the first operation (V44-3). -/
theorem test_step_runs_the_placed_word :
    nextWith (step (State.reset.withFetchWord 8 0x4))
      (fun t => decide (t = { State.reset with ret := .snapshot [0, 0, 0] false })) = true := by decide

/-! ## One operation, from the spec's vectors -/

/-- V40-1, V40-12: the calibrated profiles. -/
theorem test_calibrate_V40_1 : (calibrate Config.standard).toOption = some P16 := by decide
theorem test_calibrate_V40_14 :
    refusedWith (exec .calibrate (uncalibrated (some 0))) (.calibrationError (some 0)) = true := by decide

/-- V41-1. -/
theorem test_fall_V41_1 :
    nextWith (exec (.fall 1006) (at16 ⟨0, 1000⟩ ⟨1000, 0⟩ [] 0 0 false))
      (fun t => decide (t = at16 ⟨1006, 1000⟩ ⟨1000, 6⟩ [] 0 0 false)) = true := by decide

/-- V41-14: the same tick as the last RISE. -/
theorem test_fall_V41_14 :
    nextWith (exec (.fall 1000) (at16 ⟨500, 1000⟩ ⟨3, 4⟩ [] 0 0 false))
      (fun t => decide (t = at16 ⟨1000, 1000⟩ ⟨3, 0⟩ [] 0 0 false)) = true := by decide

/-- V41-2. -/
theorem test_rise_V41_2 :
    nextWith (exec (.rise 1020) (at16 ⟨1006, 1000⟩ ⟨1000, 6⟩ [] 0 0 false))
      (fun t => decide (t = at16 ⟨1006, 1020⟩ ⟨14, 6⟩ [] 0 1 true)) = true := by decide

/-- V41-13: a tick below an earlier one. -/
theorem test_rise_V41_13 :
    refusedWith (exec (.rise 1005) (at16 ⟨1006, 1000⟩ ⟨1000, 6⟩ [] 0 0 false)) .tickDecreased = true := by decide

/-- V44-1 and V44-2. -/
theorem test_read_V44_1 :
    nextWith (exec .read (at16 ⟨0, 0⟩ ⟨0, 0⟩ [(0, 0xB2)] 1 0 true))
      (fun t => decide (t.ret = .snapshot [0xB2, 0, 0] true) && !t.dirty && decide (t.pub = [(0, 0xB2)])) = true := by
  decide
theorem test_read_V44_2 :
    nextWith (exec .read (at16 ⟨0, 0⟩ ⟨0, 0⟩ [(0, 0xB2)] 1 0 false))
      (fun t => decide (t.ret = .snapshot [0xB2, 0, 0] false) && !t.dirty) = true := by decide

/-- Program P5, line 9: READ and FALL in one cycle. -/
theorem test_readFall_P5_9 :
    nextWith (exec (.readFall 851) (at16 ⟨832, 839⟩ ⟨7, 12⟩ [(0, 0x03)] 0 2 true))
      (fun t => decide (t.ret = .snapshot [0x03, 0, 0] true) && !t.dirty && decide (t.lt = ⟨851, 839⟩)
        && decide (t.ld = ⟨7, 12⟩)) = true := by decide

/-- Program P5, line 8: the READ of the cycle does not see the bit that the RISE writes, and the flag stays set. -/
theorem test_readRise_P5_8 :
    nextWith (exec (.readRise 839) (at16 ⟨832, 820⟩ ⟨7, 12⟩ [(0, 0x01)] 0 1 false))
      (fun t => decide (t.ret = .snapshot [0x01, 0, 0] false) && t.dirty && decide (t.pub = [(0, 0x03)])
        && decide (t.nbit = 2)) = true := by decide

/-- RESET from the middle of a frame (R150, R23). -/
theorem test_reset_clears_everything :
    nextWith (exec .reset busy) (fun t => decide (t = State.reset)) = true := by decide

theorem test_idle_keeps_the_state : nextWith (exec .idle busy) (fun t => decide (t = busy)) = true := by decide

/-- V42-1, V42-12, V42-19, V42-28: the four symbols at their windows' limits. -/
theorem test_classify_V42 :
    classify 12 5 P16 = .bit0 ∧ classify 9 15 P16 = .bit1 ∧ classify 7 6 P16 = .noSym
      ∧ classify 801 6 P16 = .frameReset ∧ classify 800 6 P16 = .noSym ∧ classify 12 4 P16 = .noSym := by decide

/-- The artificial overlapping profile of the order test in 95_test_vectors.md section 2.3. -/
theorem test_classify_order :
    let P : CalibrationProfile := ⟨⟨⟨5, 10⟩, ⟨5, 10⟩⟩, ⟨⟨8, 12⟩, ⟨8, 12⟩⟩, 9⟩
    classify 9 9 P = .bit0 ∧ classify 11 9 P = .bit1 ∧ classify 11 4 P = .frameReset
      ∧ classify 4 4 P = .noSym := by decide

/-- CLASSIFY as an operation: V41-6's pair (7, 12). -/
theorem test_classify_operation :
    nextWith (exec .classify busy) (fun t => decide (t = { busy with ret := .symbol .bit1 })) = true := by decide

/-- V43-8: the bit shifted out of bit 7 is discarded. -/
theorem test_pushBit_V43_8 :
    nextWith (exec (.pushBit false) (at16 ⟨0, 0⟩ ⟨0, 0⟩ [(1, 0x80)] 1 7 false))
      (fun t => decide (t = at16 ⟨0, 0⟩ ⟨0, 0⟩ [] 2 0 true)) = true := by decide

/-- V43-5: a full buffer. -/
theorem test_pushBit_V43_5 : nextWith (exec (.pushBit true) full) (fun t => decide (t = full)) = true := by decide

/-- V43-7: RESET_CURSOR at `(N,0)`. -/
theorem test_resetCursor_V43_7 :
    nextWith (exec .resetCursor full) (fun t => decide (t = { full with nbyte := 0 })) = true := by decide

/-- BIT_0 and BIT_1 on `frame[0] = 0x03` give 0x06 and 0x07 (R97, R98, R107). -/
theorem test_symBit0 :
    nextWith (exec .symBit0 busy) (fun t => decide (t.frame = [(0, 0x06)]) && decide (t.nbit = 3)) = true := by decide
theorem test_symBit1 :
    nextWith (exec .symBit1 busy) (fun t => decide (t.frame = [(0, 0x07)]) && decide (t.nbit = 3)) = true := by decide

/-- FRAME_RESET leaves the buffer and the flag (R99, V43-6). -/
theorem test_symFrameReset :
    nextWith (exec .symFrameReset busy) (fun t => decide (t = { busy with nbit := 0 })) = true := by decide

theorem test_symNone : nextWith (exec .symNone busy) (fun t => decide (t = busy)) = true := by decide

/-! ## Witnesses: for each obligation, a state and operands that meet its hypotheses together -/

theorem witness_CommandWordsDecodeAsTabled :
    8 ≤ (0b1000 : BitVec 4).toNat ∧ 8 ≤ (0b1111 : BitVec 4).toNat := by decide

theorem witness_BytesOfACommandDecodeToIt :
    ((Instr.readRise (2 ^ 64 - 1)).isCommand = true ∧ (Instr.readRise (2 ^ 64 - 1)).wellFormed 64 = true)
      ∧ (Instr.pushBit true).isCommand = false := by decide

theorem witness_DecodedBytesAreAWellFormedCommand : decodeBytes 8 [0x07, 0xFF] = .ok (.readRise 255) := rfl

theorem witness_IgnoredBitsChangeNothing :
    (BitVec.getLsbD (8 : BitVec 4) 3 = true ∧ BitVec.getLsbD (15 : BitVec 4) 3 = true) ∧
    BitVec.getLsbD (4 : BitVec 4) 3 = BitVec.getLsbD (5 : BitVec 4) 3 ∧
    BitVec.getLsbD (4 : BitVec 4) 2 = BitVec.getLsbD (5 : BitVec 4) 2 ∧
    BitVec.getLsbD (4 : BitVec 4) 1 = false ∧ BitVec.getLsbD (5 : BitVec 4) 1 = false := by decide

theorem witness_SymbolCodeSaysWhatToDo :
    Symbol.bit0.code.getLsbD 1 = true ∧ Symbol.bit1.code.getLsbD 1 = true ∧
    (Symbol.frameReset.code.getLsbD 1 = false ∧
      exec Symbol.frameReset.instr busy = .next { busy with nbit := 0 }) ∧
    (Symbol.noSym.code.getLsbD 1 = false ∧ exec Symbol.noSym.instr busy = .next busy) :=
  ⟨rfl, rfl, ⟨rfl, rfl⟩, ⟨rfl, rfl⟩⟩

/-- The lowest frequency, and the frequency zero. -/
theorem witness_CalibrateComputesTheProfile :
    (let s := uncalibrated (some 1)
     s.cfg.fHz = some 1 ∧ 1 ≤ 1 ∧ s.cfg.withinSpec = true ∧ (profileFor s.cfg 1).fits s.cfg.tickW = true) ∧
    (uncalibrated (some 0)).cfg.fHz = some 0 ∧
    refusedWith (exec .calibrate (uncalibrated (some 0))) (.calibrationError (some 0)) = true := by decide

theorem witness_TickConversionIsExact : 1 ≤ 1 ∧ ticksFloor 16000000 850 = 13 := by decide

/-- At 16 MHz exactly 50000 ns are 800 ticks. -/
theorem witness_ResetThresholdIsStrict :
    calibrate Config.standard = .ok P16 ∧ 800 * 1000000000 = Config.standard.tresetNs * 16000000 ∧
    Config.standard.tresetNs * 16000000 < 801 * 1000000000 := ⟨rfl, by decide, by decide⟩

theorem witness_CalibrationErrorLeavesNoMachine :
    ((uncalibrated (some 0)).profile = none ∧ (uncalibrated (some 0)).cfg.fHz = some 0 ∧ Instr.rise 5 ≠ .calibrate) ∧
    refusedWith (exec .calibrate (uncalibrated none)) (.calibrationError none) = true := by decide

/-- A threshold of 801 ticks does not fit 8 bits. -/
theorem witness_ProfileMustFitTheTickWidth :
    (let s : State := { uncalibrated (some 16000000) with
        cfg := { Config.withDefaults 1 1 (some 16000000) with tickW := 8 } }
     s.cfg.fHz = some 16000000 ∧ 1 ≤ 16000000 ∧ s.cfg.withinSpec = true ∧
      refusedWith (exec .calibrate s) .profileOutOfRange = true ∧
      801 ∈ (profileFor s.cfg 16000000).values ∧ 2 ^ s.cfg.tickW ≤ 801) ∧
    (1 ≤ 2 ^ 64 - 1 ∧ 2 ^ 64 - 1 < 2 ^ 64 ∧
      (uncalibrated (some (2 ^ 64 - 1))).cfg = Config.withDefaults 1 1 (some (2 ^ 64 - 1))) := by decide

theorem witness_CalibrationIsPure :
    exec .calibrate (uncalibrated (some 16000000)) =
      .next { uncalibrated (some 16000000) with profile := some P16 } ∧
    State.reset.cfg = (uncalibrated (some 16000000)).cfg := ⟨rfl, rfl⟩

theorem witness_ZeroDurationMatchesNothing :
    ∃ P, calibrate (uncalibrated (some 1)).cfg = .ok P ∧ P.resetThreshold = 1 := ⟨_, rfl, by decide⟩

/-- The lowest frequency of the guarantee (V40-10), and the lowest above the one of V40-15. -/
theorem witness_WindowsAreNonEmptyAtHighFrequency :
    ((Config.withDefaults 1 1 (some 3333334)).withinSpec = true ∧
      1000000000 ≤ 2 * (Config.withDefaults 1 1 (some 3333334)).tolNs * 3333334) ∧
    3157894 < 3157895 ∧
    (1 ≤ 1 ∧ (uncalibrated (some 1000000)).cfg = Config.withDefaults 1 1 (some 1000000)) := by decide

theorem witness_DefaultWindowsAreSeparated : 1 ≤ 1 := by decide

/-- V40-9: `1..0`. -/
theorem witness_EmptyWindowContainsNothing : (TimingWindow.mk 1 0).max < (TimingWindow.mk 1 0).min := by decide

theorem witness_ClassifyReturnsTheSymbol : busy.profile = some P16 := by decide

theorem witness_SymbolsPerformTheirActions :
    (busy.profile = some P16 ∧ busy.nbyte < busy.cfg.frameBytes) ∧
    (full.profile = some P16 ∧ full.cfg.frameBytes ≤ full.nbyte) := by decide

/-- The last bit of the last byte, and the first bit of the first. -/
theorem witness_PushBitWritesPublishesAndAdvances :
    (let s := at16 ⟨0, 0⟩ ⟨0, 0⟩ allOnes 2 7 false
     s.profile = some P16 ∧ s.frame.wellFormed s.cfg = true ∧ s.nbyte < s.cfg.frameBytes ∧ s.nbit = 7) ∧
    (State.reset.profile = some P16 ∧ State.reset.frame.wellFormed State.reset.cfg = true ∧
      State.reset.nbyte < State.reset.cfg.frameBytes ∧ State.reset.nbit ≠ 7) ∧
    (full.profile = some P16 ∧ full.frame.wellFormed full.cfg = true ∧ full.cfg.frameBytes ≤ full.nbyte) := by decide

/-- The full state keeps the invariant. -/
theorem full_inv : Inv full where
  calibrated := by intro P h; cases h; rfl
  cursorInRange := by decide
  fullAtByteStart := by decide
  frameWellFormed := by decide
  published := by decide
  ltFits := by decide
  ldFits := by decide

theorem witness_PushBitIntoFullBufferIsDropped :
    full.profile = some P16 ∧ full.cfg.frameBytes ≤ full.nbyte ∧ Inv full := ⟨rfl, by decide, full_inv⟩

theorem witness_PartialByteKeepsShiftedOldBits :
    (let s := at16 ⟨0, 0⟩ ⟨0, 0⟩ allOnes 2 0 false
     s.profile = some P16 ∧ s.frame.wellFormed s.cfg = true ∧ s.nbyte < s.cfg.frameBytes ∧ s.nbit = 0) ∧
    1 ≤ [true].length ∧ [true].length ≤ 7 ∧
    1 ≤ (List.replicate 7 true).length ∧ (List.replicate 7 true).length ≤ 7 := by decide

theorem witness_EightBitsReplaceAByte :
    let s := at16 ⟨0, 0⟩ ⟨0, 0⟩ allOnes 2 0 false
    s.profile = some P16 ∧ s.frame.wellFormed s.cfg = true ∧ s.nbyte < s.cfg.frameBytes ∧ s.nbit = 0 := by decide

theorem witness_BufferHoldsEightBitsPerByte :
    State.reset.profile = some P16 ∧ State.reset.nbyte = 0 ∧ State.reset.nbit = 0 ∧
    State.reset.frame.wellFormed State.reset.cfg = true := by decide

theorem witness_ResetCursorTouchesOnlyTheCursor :
    full.profile = some P16 ∧ full.nbyte = full.cfg.frameBytes ∧ ∃ t, exec .symBit1 full = .next t :=
  ⟨rfl, rfl, _, rfl⟩

/-- The tick equal to both registers (R90) is among the operands. -/
theorem witness_FallRecordsTheHighPulse :
    busy.profile = some P16 ∧ busy.lt.low ≤ 851 ∧ busy.lt.high ≤ 851 := by decide

/-- A bit of each value, a frame reset, no symbol, and a bit that finds the buffer full. -/
theorem witness_RiseTimesClassifiesAndActs :
    (busy.profile = some P16 ∧ busy.frame.wellFormed busy.cfg = true ∧
      busy.lt.low ≤ 858 ∧ busy.lt.high ≤ 858 ∧
      classify (858 - busy.lt.low) busy.ld.high P16 = (if true then .bit1 else .bit0) ∧
      busy.nbyte < busy.cfg.frameBytes) ∧
    (let s := at16 ⟨1006, 1000⟩ ⟨1000, 6⟩ [] 2 7 false
     s.profile = some P16 ∧ s.frame.wellFormed s.cfg = true ∧ s.lt.low ≤ 1020 ∧ s.lt.high ≤ 1020 ∧
      classify (1020 - s.lt.low) s.ld.high P16 = (if false then .bit1 else .bit0) ∧ s.nbyte < s.cfg.frameBytes) ∧
    (busy.lt.low ≤ 1652 ∧ busy.lt.high ≤ 1652 ∧
      classify (1652 - busy.lt.low) busy.ld.high P16 = .frameReset) ∧
    (classify (854 - busy.lt.low) busy.ld.high P16 ≠ .frameReset ∧ busy.riseWritesBit P16 854 = false) ∧
    (full.profile = some P16 ∧ full.lt.low ≤ 1276 ∧ full.lt.high ≤ 1276 ∧
      full.riseWritesBit P16 1276 = false) := by decide

theorem witness_RiseDispatchesExactlyOneAction :
    busy.profile = some P16 ∧ busy.lt.low ≤ 851 ∧ busy.lt.high ≤ 851 := by decide

theorem witness_RiseUsesTheHighPulseBeforeTheLow :
    busy.profile = some P16 ∧ busy.lt.low ≤ 851 ∧ busy.lt.high ≤ 851 ∧ 851 ≤ 851 := by decide

theorem witness_DecreasingTickHasNoSuccessor :
    busy.profile = some P16 ∧ ticksInOrder busy.cfg.tickW 0 [⟨0x2, 6⟩, ⟨0x3, 5⟩] = false ∧
    ticksInOrder busy.cfg.tickW 0 [⟨0x2, 6⟩, ⟨0x3, 6⟩] = true := by decide

theorem witness_EqualTicksContributeNothing :
    busy.profile = some P16 ∧ calibrate busy.cfg = .ok P16 ∧ busy.lt.high ≤ busy.lt.low ∧
    (State.reset.lt.high ≤ State.reset.lt.low ∧ State.reset.lt.low ≤ State.reset.lt.high ∧
      State.reset.ld.high = 0) := ⟨rfl, rfl, by decide, by decide⟩

theorem witness_RepeatedLevelsAreTakenLiterally :
    busy.profile = some P16 ∧ busy.lt.low ≤ 858 ∧ busy.lt.high ≤ 858 ∧ 858 ≤ 859 := by decide

theorem witness_HighPulseBeforeAGapIsLost :
    busy.profile = some P16 ∧ 1 ≤ 16000000 ∧ busy.cfg = Config.withDefaults 1 1 (some 16000000) ∧
    P16 = profileFor busy.cfg 16000000 ∧ busy.lt.low ≤ 851 ∧ busy.lt.high ≤ 851 ∧
    851 + P16.resetThreshold ≤ 1652 := by decide

theorem witness_ResetRestoresTheResetValues : busy.profile = some P16 := by decide

theorem witness_RstOverridesEveryOtherPort :
    let s : State := { busy with inputs := [⟨0b1111, 5⟩] }
    s.profile = some P16 ∧ (0b1111 : BitVec 4).getLsbD 3 = true ∧ s.inputs = ⟨0b1111, 5⟩ :: [] := by decide

theorem witness_IdleChangesNothing :
    let s : State := { busy with inputs := [⟨0b0001, 5⟩, ⟨0b0000, 6⟩] }
    s.profile = some P16 ∧ ((0b0001 : BitVec 4) = 0b0000 ∨ (0b0001 : BitVec 4) = 0b0001) ∧
    s.inputs = ⟨0b0001, 5⟩ :: [⟨0b0000, 6⟩] := by decide

theorem witness_ReadReturnsSnapshotAndClears : busy.profile = some P16 ∧ busy.dirty = true := by decide

theorem witness_ReadFallReadsThenFalls :
    busy.profile = some P16 ∧ busy.lt.low ≤ 851 ∧ busy.lt.high ≤ 851 := by decide

theorem witness_ReadRiseSetWinsOverClear :
    (busy.profile = some P16 ∧ busy.lt.low ≤ 858 ∧ busy.lt.high ≤ 858 ∧ busy.riseWritesBit P16 858 = true) ∧
    (busy.lt.low ≤ 854 ∧ busy.lt.high ≤ 854 ∧ busy.riseWritesBit P16 854 = false) := by decide

theorem witness_OutputBusCarriesThePublishedBytes : 0 < busy.cfg.frameBytes ∧ 2 < busy.cfg.frameBytes ∧ 7 < 8 := by
  decide

theorem witness_ClearFlagMeansNothingNewSinceRead :
    (∀ i ∈ [Instr.rise 854, .fall 866, .classify],
      i ≠ .reset ∧ i ≠ .read ∧ (∀ k, i ≠ .readFall k) ∧ (∀ k, i ≠ .readRise k)) ∧
    (∃ t, execAll (.read :: [Instr.rise 854, .fall 866, .classify]) busy = .next t ∧ t.dirty = false) :=
  ⟨by simp, _, rfl, rfl⟩

/-- A RISE that writes and sets the flag, one that does not, a READ_FALL that clears it, and room for a bit. -/
theorem witness_FlagIsSetByWritesAndSteersNothing :
    (∃ t, exec (.rise 858) busy = .next t ∧ busy.writesBit (.rise 858) = true) ∧
    (∃ t, exec (.readRise 854) busy = .next t ∧ busy.writesBit (.readRise 854) = false) ∧
    (∃ t, exec (.readFall 851) busy = .next t ∧ busy.writesBit (.readFall 851) = false) ∧
    busy.profile = some P16 ∧ busy.nbyte < busy.cfg.frameBytes :=
  ⟨⟨_, rfl, by decide⟩, ⟨_, rfl, by decide⟩, ⟨_, rfl, by decide⟩, rfl, by decide⟩

theorem witness_ReturnValueIsNeverRead : ∃ t, exec (.readRise 858) busy = .next t := ⟨_, rfl⟩

theorem witness_OperationsIgnoreComingInputs : ∃ t, exec (.readRise 858) busy = .next t := ⟨_, rfl⟩

/-- An operation that writes, a RISE that writes nothing, and one that finds the buffer full. -/
theorem witness_FrameIsWrittenOnlyAtTheCursor :
    (busy.profile = some P16 ∧ busy.frame.wellFormed busy.cfg = true ∧ full.frame.wellFormed full.cfg = true) ∧
    (∃ t, exec (.rise 858) busy = .next t ∧ Instr.rise 858 ≠ .reset ∧ busy.writesBit (.rise 858) = true) ∧
    (∃ t, exec (.readRise 854) busy = .next t ∧ Instr.readRise 854 ≠ .reset ∧
      busy.writesBit (.readRise 854) = false) ∧
    (∃ t, exec .symBit1 full = .next t ∧ Instr.symBit1 ≠ .reset ∧ full.cfg.frameBytes ≤ full.nbyte) :=
  ⟨by decide, ⟨_, rfl, by decide, by decide⟩, ⟨_, rfl, by decide, by decide⟩, ⟨_, rfl, by decide, by decide⟩⟩

theorem witness_OnlyTransitionsUseTheTickRegisters :
    ∃ t, exec (.pushBit true) busy = .next t ∧ (∀ k, Instr.pushBit true ≠ .fall k) ∧
      (∀ k, Instr.pushBit true ≠ .rise k) ∧ (∀ k, Instr.pushBit true ≠ .readFall k) ∧
      (∀ k, Instr.pushBit true ≠ .readRise k) ∧ Instr.pushBit true ≠ .reset := ⟨_, rfl, by simp⟩

theorem witness_ConfigurationIsImmutable :
    (∃ t, exec .calibrate full = .next t) ∧ (∃ t, exec .read full = .next t ∧ Instr.read ≠ .calibrate) ∧
    Inv full ∧ full.profile ≠ none := ⟨⟨_, rfl⟩, ⟨_, rfl, by decide⟩, full_inv, by decide⟩

/-- A bit inside a byte, the last bit of the last byte, a frame reset, and an operation that keeps the cursor. -/
theorem witness_CursorStepsByOneBitOrResets :
    (busy.profile = some P16 ∧ busy.nbyte < busy.cfg.frameBytes) ∧
    (∃ t, exec (.rise 858) busy = .next t ∧ busy.writesBit (.rise 858) = true ∧ busy.nbit ≠ 7) ∧
    (let s := at16 ⟨0, 0⟩ ⟨0, 0⟩ allOnes 2 7 false
     ∃ t, exec .symBit0 s = .next t ∧ s.writesBit .symBit0 = true ∧ s.nbit = 7) ∧
    (∃ t, exec (.rise 1652) busy = .next t ∧ busy.resetsCursor (.rise 1652) = true) ∧
    (∃ t, exec (.rise 854) busy = .next t ∧ busy.writesBit (.rise 854) = false ∧
      busy.resetsCursor (.rise 854) = false) :=
  ⟨by decide, ⟨_, rfl, by decide, by decide⟩, ⟨_, rfl, by decide, by decide⟩, ⟨_, rfl, by decide⟩,
    ⟨_, rfl, by decide, by decide⟩⟩

/-- The last address of the buffer, and the byte an unlisted address reads as. -/
theorem witness_EqualBuffersAreEqualLists :
    Memory.wellFormed Config.standard allOnes = true ∧ 2 < Config.standard.frameBytes ∧
    Memory.read Config.standard (Memory.write Config.standard allOnes 2 0) 2 = 0 := by decide

theorem witness_EveryStepKeepsTheInvariant : Inv full ∧ ∃ t, step full = .next t := ⟨full_inv, _, rfl⟩

theorem witness_EveryOperationKeepsCursorAndPublication :
    (∃ t, exec (.pushBit true) full = .next t) ∧ full.nbyte ≤ full.cfg.frameBytes ∧
    (full.nbyte = full.cfg.frameBytes ∧ full.nbit = 0) ∧ (∀ a, full.pubByte a = full.frameByte a) :=
  ⟨⟨_, rfl⟩, by decide, by decide, fun _ => rfl⟩

theorem witness_CursorAndPublicationHoldAfterReset :
    full.profile = some P16 ∧ (∃ t, execAll (.reset :: [.fall 6, .rise 20]) full = .next t ∧ t.nbit = 1) ∧
    (∃ t u, execAll (.reset :: List.replicate 24 (.pushBit true)) full = .next t ∧ t.nbyte = t.cfg.frameBytes ∧
      exec .symFrameReset t = .next u) :=
  ⟨rfl, ⟨_, rfl, rfl⟩, ⟨_, _, rfl, rfl, rfl⟩⟩

/-- A glitch of 3 ticks (V41-5). -/
theorem witness_MalformedTimingStaysSilent :
    busy.profile = some P16 ∧ busy.lt.low ≤ 854 ∧ busy.lt.high ≤ 854 ∧
    classify (854 - busy.lt.low) busy.ld.high P16 = .noSym := by decide

theorem witness_ConformingRunNeverStops :
    let s : State := { full with inputs := [⟨0x2, 1288⟩, ⟨0x7, 1295⟩, ⟨0x8, 0⟩, ⟨0x3, 801⟩] }
    Inv s ∧ s.profile ≠ none ∧ s.environmentOk = true :=
  ⟨{ full_inv with }, by decide, by decide⟩

theorem witness_StepRunsThePresentedOperation :
    (let s : State := { busy with inputs := [⟨0x3, 858⟩] }
     s.profile = some P16 ∧ s.inputs = ⟨0x3, 858⟩ :: [] ∧ s.cfg.tickW = 64) ∧
    decodeBytes 64 [0x03, 0x5A, 0x03, 0, 0, 0, 0, 0, 0] = .ok (.rise 858) ∧
    decodeTableWord 8 0x4 = some .read := ⟨by decide, rfl, by decide⟩

theorem witness_CalibrateThenResetBootsTheDecoder :
    let s : State := { uncalibrated (some 16000000) with lt := ⟨9, 4⟩, nbyte := 77, nbit := 5, frame := allOnes }
    s.profile = none ∧ s.cfg.fHz = some 16000000 ∧ 1 ≤ 16000000 ∧ s.cfg.withinSpec = true ∧
    (profileFor s.cfg 16000000).fits s.cfg.tickW = true ∧
    ((uncalibrated none).profile = none ∧ (uncalibrated none).cfg.fHz = none) ∧
    ((uncalibrated (some 0)).profile = none ∧ (uncalibrated (some 0)).cfg.fHz = some 0) := by decide

theorem witness_SameCycleReadIsReadFirst : busy.profile ≠ none := by decide

/-- The last byte of the buffer. -/
theorem witness_ReceivedByteIsStored :
    let s := at16 ⟨851, 858⟩ ⟨7, 12⟩ allOnes 2 0 false
    s.profile = some P16 ∧ s.cfg = Config.withDefaults 1 1 (some 16000000) ∧ P16 = profileFor s.cfg 16000000 ∧
    6666667 ≤ 16000000 ∧ s.frame.wellFormed s.cfg = true ∧ s.nbyte < s.cfg.frameBytes ∧ s.nbit = 0 ∧
    s.lt.low ≤ s.lt.high := by decide

/-- The lowest frequency of the headline. -/
theorem witness_ReceivedByteIsStored_lowest :
    ∃ P, calibrate (Config.withDefaults 1 1 (some 6666667)) = .ok P ∧
      P = profileFor (Config.withDefaults 1 1 (some 6666667)) 6666667 ∧ 6666667 ≤ 6666667 := ⟨_, rfl, rfl, by decide⟩

end Sys2Proof.Tests
end

section
/-! PROOFS. The state (10_state.md): who writes the flag, the frame buffer, the tick registers and the configuration,
who reads the flag and the tick registers, and the cursor and publication invariants R15 and R19. -/

namespace Sys2Proof.Machine

/-! ## Room in the buffer, and the operations that write a bit -/

theorem State.full_eq_false_iff (s : State) : s.full = false ↔ s.nbyte < s.cfg.frameBytes := by
  simp [State.full]

theorem State.writesBit_rise {s : State} {P : CalibrationProfile} (hP : s.profile = some P) (k : Nat) :
    s.writesBit (.rise k) = s.riseWritesBit P k := by
  simp [State.writesBit, hP]

theorem State.writesBit_readRise {s : State} {P : CalibrationProfile} (hP : s.profile = some P) (k : Nat) :
    s.writesBit (.readRise k) = s.riseWritesBit P k := by
  simp [State.writesBit, hP]

/-- R106: nothing is written into a full buffer. -/
theorem State.writesBit_of_full {s : State} (h : s.full = true) (i : Instr) : s.writesBit i = false := by
  cases i with
  | rise k => cases hP : s.profile <;> simp [State.writesBit, State.riseWritesBit, hP, h]
  | readRise k => cases hP : s.profile <;> simp [State.writesBit, State.riseWritesBit, hP, h]
  | _ => simp [State.writesBit, h]

/-! ## The configuration (R21) -/

/-- What every operation leaves of the configuration. -/
theorem exec_configuration {i : Instr} {s t : State} (h : exec i s = .next t) :
    t.cfg = s.cfg ∧ (i ≠ .calibrate → t.profile = s.profile) := by
  obtain ⟨rfl, P, -, rfl⟩ | ⟨P, -, h'⟩ := exec_next_cases h
  · exact ⟨rfl, fun hi => absurd rfl hi⟩
  · rcases h' with ⟨-, rfl⟩ | ⟨-, rfl⟩ | ⟨-, rfl⟩ | ⟨-, rfl⟩ | ⟨-, rfl⟩ | ⟨v, -, rfl⟩ | ⟨sym, -, rfl⟩ |
      ⟨k, -, -, -, rfl⟩ | ⟨k, -, -, -, rfl⟩ | ⟨k, -, -, -, rfl⟩ | ⟨k, -, -, -, rfl⟩ <;> simp

theorem exec_cfg {i : Instr} {s t : State} (h : exec i s = .next t) : t.cfg = s.cfg := (exec_configuration h).1

/-- Every operation, CALIBRATE included, keeps a profile that is the calibrated one. -/
theorem exec_profile_of_calibrated {i : Instr} {s t : State} {Q : CalibrationProfile} (h : exec i s = .next t)
    (hQ : s.profile = some Q) (hc : calibrate s.cfg = .ok Q) : t.profile = s.profile := by
  by_cases hi : i = .calibrate
  · subst hi
    rw [exec_calibrate_ok hc] at h
    cases h
    exact hQ.symm
  · exact (exec_configuration h).2 hi

/-- Settles O47: CALIBRATE alone writes the profile, and recomputes the one that the invariant says is there. -/
theorem configurationIsImmutable : Obligations.ConfigurationIsImmutable := by
  intro i s t h
  obtain ⟨hcfg, hprofile⟩ := exec_configuration h
  refine ⟨hcfg, hprofile, fun hinv hne => ?_⟩
  obtain ⟨Q, hQ⟩ := Option.ne_none_iff_exists'.1 hne
  exact exec_profile_of_calibrated h hQ (hinv.calibrated Q hQ)

/-! ## The frame buffer (R13) -/

/-- R107 on numbers. -/
theorem shiftIn_toNat (b : Byte) (v : Bool) : (shiftIn b v).toNat = (b.toNat * 2 % 256) ||| v.toNat := by
  have hz : (zext8 v).toNat = v.toNat := by cases v <;> rfl
  simp [shiftIn, hz, BitVec.toNat_shiftLeft, Nat.shiftLeft_eq]

theorem State.frameByte_congr {s t : State} (hf : t.frame = s.frame) (hc : t.cfg = s.cfg) (a : Nat) :
    t.frameByte a = s.frameByte a := by
  rw [State.frameByte, State.frameByte, hf, hc]

theorem State.pubByte_congr {s t : State} (hp : t.pub = s.pub) (hc : t.cfg = s.cfg) (a : Nat) :
    t.pubByte a = s.pubByte a := by
  rw [State.pubByte, State.pubByte, hp, hc]

/-- Every byte after a PUSH_BIT that finds room. -/
theorem State.pushBit_frameByte {s : State} (hw : s.frame.wellFormed s.cfg = true) (hroom : s.full = false)
    (v : Bool) (a : Nat) :
    (s.pushBit v).frameByte a = if s.nbyte = a then shiftIn (s.frameByte s.nbyte) v else s.frameByte a := by
  rw [State.pushBit_of_not_full v hroom]
  exact Memory.read_write hw _ _ _

/-- Every byte after an operation that writes a bit. -/
theorem exec_frameByte_of_writesBit {i : Instr} {s t : State} (h : exec i s = .next t)
    (hw : s.frame.wellFormed s.cfg = true) (hwrite : s.writesBit i = true) :
    ∃ v, ∀ a, t.frameByte a = if s.nbyte = a then shiftIn (s.frameByte s.nbyte) v else s.frameByte a := by
  obtain ⟨v, hroom, -, hframe, -⟩ := (exec_bufferStep h).written hwrite
  refine ⟨v, fun a => ?_⟩
  have hcfg : t.cfg = (s.pushBit v).cfg := by rw [exec_cfg h, State.pushBit_cfg]
  rw [State.frameByte_congr hframe hcfg, State.pushBit_frameByte hw hroom]

/-- An operation that writes no bit, other than RESET, leaves both buffers. -/
theorem exec_buffers_of_not_writesBit {i : Instr} {s t : State} (h : exec i s = .next t) (hi : i ≠ .reset)
    (hwrite : s.writesBit i = false) : t.frame = s.frame ∧ t.pub = s.pub :=
  ((exec_bufferStep h).unwritten hwrite).2 (decide_eq_false hi)

/-- Settles O45: a written bit is the PUSH_BIT of `exec_bufferStep`, which writes the byte at the cursor only. -/
theorem frameIsWrittenOnlyAtTheCursor : Obligations.FrameIsWrittenOnlyAtTheCursor := by
  refine ⟨fun i s t h hw hi => ?_, fun i s hfull => State.writesBit_of_full ((State.full_iff s).2 hfull) i,
    fun s P k hP => ⟨State.writesBit_rise hP k, State.writesBit_readRise hP k⟩⟩
  cases hwrite : s.writesBit i
  · have hbuf := exec_buffers_of_not_writesBit h hi hwrite
    exact ⟨fun a _ => State.frameByte_congr hbuf.1 (exec_cfg h) a, by simp, fun _ => hbuf⟩
  · obtain ⟨v, hv⟩ := exec_frameByte_of_writesBit h hw hwrite
    refine ⟨fun a ha => by rw [hv, if_neg (Ne.symm ha)], fun _ => ⟨v, ?_⟩, by simp⟩
    rw [hv, if_pos rfl, shiftIn_toNat]

/-! ## The flag (R16) -/

/-- The two states differ at most in the flag and the returned value. -/
def AgreeButFlagAndRet (s s' : State) : Prop := s' = { s with dirty := s'.dirty, ret := s'.ret }

theorem agreeButFlagAndRet_iff {s s' : State} :
    AgreeButFlagAndRet s s' ↔ ∃ d r, s' = { s with dirty := d, ret := r } :=
  ⟨fun h => ⟨_, _, h⟩, by rintro ⟨d, r, rfl⟩; rfl⟩

section
variable {s s' : State} (h : AgreeButFlagAndRet s s')
include h

theorem AgreeButFlagAndRet.profile : s'.profile = s.profile := by
  obtain ⟨d, r, rfl⟩ := agreeButFlagAndRet_iff.1 h; rfl

theorem AgreeButFlagAndRet.cfg : s'.cfg = s.cfg := by
  obtain ⟨d, r, rfl⟩ := agreeButFlagAndRet_iff.1 h; rfl

theorem AgreeButFlagAndRet.lt : s'.lt = s.lt := by
  obtain ⟨d, r, rfl⟩ := agreeButFlagAndRet_iff.1 h; rfl

theorem AgreeButFlagAndRet.ld : s'.ld = s.ld := by
  obtain ⟨d, r, rfl⟩ := agreeButFlagAndRet_iff.1 h; rfl

theorem AgreeButFlagAndRet.hardReset : AgreeButFlagAndRet s.hardReset s'.hardReset := by
  obtain ⟨d, r, rfl⟩ := agreeButFlagAndRet_iff.1 h; rfl

theorem AgreeButFlagAndRet.readAndClear : AgreeButFlagAndRet s.readAndClear s'.readAndClear := by
  obtain ⟨d, r, rfl⟩ := agreeButFlagAndRet_iff.1 h; rfl

theorem AgreeButFlagAndRet.withProfile (P : Option CalibrationProfile) :
    AgreeButFlagAndRet { s with profile := P } { s' with profile := P } := by
  obtain ⟨d, r, rfl⟩ := agreeButFlagAndRet_iff.1 h; rfl

theorem AgreeButFlagAndRet.withRet (r r' : Ret) :
    AgreeButFlagAndRet { s with ret := r } { s' with ret := r' } := by
  obtain ⟨d, r, rfl⟩ := agreeButFlagAndRet_iff.1 h; rfl

theorem AgreeButFlagAndRet.resetCursor : AgreeButFlagAndRet s.resetCursor s'.resetCursor := by
  obtain ⟨d, r, rfl⟩ := agreeButFlagAndRet_iff.1 h; rfl

theorem AgreeButFlagAndRet.stamp (v : Level) (k : Nat) : AgreeButFlagAndRet (s.stamp v k) (s'.stamp v k) := by
  obtain ⟨d, r, rfl⟩ := agreeButFlagAndRet_iff.1 h; rfl

/-- The full test and the byte update do not look at the flag. -/
theorem AgreeButFlagAndRet.pushBit (v : Bool) : AgreeButFlagAndRet (s.pushBit v) (s'.pushBit v) := by
  obtain ⟨d, r, rfl⟩ := agreeButFlagAndRet_iff.1 h
  cases hf : s.full
  · rw [State.pushBit_of_not_full v hf, State.pushBit_of_not_full v (s := { s with dirty := d, ret := r }) hf]; rfl
  · rwa [State.pushBit_of_full v hf, State.pushBit_of_full v (s := { s with dirty := d, ret := r }) hf]

theorem AgreeButFlagAndRet.dispatch (sym : Symbol) : AgreeButFlagAndRet (s.dispatch sym) (s'.dispatch sym) := by
  cases sym with
  | noSym => exact h
  | frameReset => exact h.resetCursor
  | bit0 => exact h.pushBit false
  | bit1 => exact h.pushBit true

/-- The classification does not look at the flag. -/
theorem AgreeButFlagAndRet.gate (P : CalibrationProfile) (v : Level) :
    AgreeButFlagAndRet (s.gate P v) (s'.gate P v) := by
  cases v with
  | low => exact h
  | high =>
    simp only [State.gate, h.ld]
    exact h.dispatch _

/-- A transition that has a next state has one that agrees from a state that agrees. -/
theorem AgreeButFlagAndRet.onTransition (P : CalibrationProfile) (v : Level) {k : Nat}
    (hk : s.lt.low ≤ k ∧ s.lt.high ≤ k) :
    ∃ t', s'.onTransition P v k = .next t' ∧ AgreeButFlagAndRet ((s.stamp v k).gate P v) t' :=
  ⟨_, State.onTransition_of_inOrder P v (by rwa [h.lt]), (h.stamp v k).gate P v⟩

/-- No operation tests the flag or the returned value. -/
theorem AgreeButFlagAndRet.exec {i : Instr} {t : State} (hx : exec i s = .next t) :
    ∃ t', exec i s' = .next t' ∧ AgreeButFlagAndRet t t' := by
  obtain ⟨rfl, P, hP, rfl⟩ | ⟨P, hP, hx'⟩ := exec_next_cases hx
  · exact ⟨_, exec_calibrate_ok (by rwa [h.cfg]), h.withProfile _⟩
  · have hP' : s'.profile = some P := h.profile.trans hP
    rcases hx' with ⟨rfl, rfl⟩ | ⟨rfl, rfl⟩ | ⟨rfl, rfl⟩ | ⟨rfl, rfl⟩ | ⟨rfl, rfl⟩ | ⟨v, rfl, rfl⟩ | ⟨sym, rfl, rfl⟩ |
      ⟨k, rfl, hlow, hhigh, rfl⟩ | ⟨k, rfl, hlow, hhigh, rfl⟩ | ⟨k, rfl, hlow, hhigh, rfl⟩ | ⟨k, rfl, hlow, hhigh, rfl⟩
    · exact ⟨_, exec_reset hP', h.hardReset⟩
    · exact ⟨_, exec_read hP', h.readAndClear⟩
    · exact ⟨_, exec_classify hP', h.withRet _ _⟩
    · exact ⟨_, exec_resetCursor hP', h.resetCursor⟩
    · exact ⟨_, exec_idle hP', h⟩
    · exact ⟨_, exec_pushBit hP' v, h.pushBit v⟩
    · exact ⟨_, exec_instr hP' sym, h.dispatch sym⟩
    · rw [exec_fall hP']; exact h.onTransition P .low ⟨hlow, hhigh⟩
    · rw [exec_rise hP']; exact h.onTransition P .high ⟨hlow, hhigh⟩
    · rw [exec_readFall hP']; exact h.readAndClear.onTransition P .low ⟨hlow, hhigh⟩
    · rw [exec_readRise hP']; exact h.readAndClear.onTransition P .high ⟨hlow, hhigh⟩

end

/-- Settles O42: what is written and cleared by `exec_bufferStep`, that nothing tests it by
`AgreeButFlagAndRet.exec`. -/
theorem flagIsSetByWritesAndSteersNothing : Obligations.FlagIsSetByWritesAndSteersNothing := by
  refine ⟨fun i s t h => ⟨fun hw => ?_, fun hw => ((exec_bufferStep h).unwritten hw).1⟩,
    fun s P k hP => ⟨State.writesBit_rise hP k, State.writesBit_readRise hP k⟩, fun s hroom => ?_,
    fun i s t d h => AgreeButFlagAndRet.exec (s' := { s with dirty := d }) rfl h, fun _ => rfl⟩
  · obtain ⟨v, -, -, -, -, -, -, hdirty⟩ := (exec_bufferStep h).written hw
    exact hdirty
  · have hfull := (State.full_eq_false_iff s).2 hroom
    simp [State.writesBit, hfull]

/-! ## The tick registers (R12) -/

/-- `s` with other contents of the tick registers. -/
def State.withTicks (s : State) (lt ld : PerLevel) : State := { s with lt := lt, ld := ld }

theorem State.pushBit_withTicks (s : State) (lt ld : PerLevel) (v : Bool) :
    (s.withTicks lt ld).pushBit v = (s.pushBit v).withTicks lt ld := by
  cases hf : s.full
  · rw [State.pushBit_of_not_full v hf, State.pushBit_of_not_full v (s := s.withTicks lt ld) hf]; rfl
  · rw [State.pushBit_of_full v hf, State.pushBit_of_full v (s := s.withTicks lt ld) hf]

theorem State.dispatch_withTicks (s : State) (lt ld : PerLevel) (sym : Symbol) :
    (s.withTicks lt ld).dispatch sym = (s.dispatch sym).withTicks lt ld := by
  cases sym with
  | noSym => rfl
  | frameReset => rfl
  | bit0 => exact State.pushBit_withTicks s lt ld false
  | bit1 => exact State.pushBit_withTicks s lt ld true

/-- Settles O46: each operation left by the hypotheses keeps the registers and commutes with rewriting them. -/
theorem onlyTransitionsUseTheTickRegisters : Obligations.OnlyTransitionsUseTheTickRegisters := by
  intro i s t h hfall hrise hreadFall hreadRise hreset
  obtain ⟨rfl, P, hP, rfl⟩ | ⟨P, hP, h'⟩ := exec_next_cases h
  · exact ⟨rfl, rfl, fun _ lt ld => exec_calibrate_ok (s := s.withTicks lt ld) hP⟩
  · have hP' (lt ld : PerLevel) : (s.withTicks lt ld).profile = some P := hP
    rcases h' with ⟨rfl, -⟩ | ⟨rfl, rfl⟩ | ⟨rfl, rfl⟩ | ⟨rfl, rfl⟩ | ⟨rfl, rfl⟩ | ⟨v, rfl, rfl⟩ | ⟨sym, rfl, rfl⟩ |
      ⟨k, rfl, -⟩ | ⟨k, rfl, -⟩ | ⟨k, rfl, -⟩ | ⟨k, rfl, -⟩
    · exact absurd rfl hreset
    · exact ⟨rfl, rfl, fun _ lt ld => exec_read (hP' lt ld)⟩
    · exact ⟨rfl, rfl, fun hi => absurd rfl hi⟩
    · exact ⟨rfl, rfl, fun _ lt ld => exec_resetCursor (hP' lt ld)⟩
    · exact ⟨rfl, rfl, fun _ lt ld => exec_idle (hP' lt ld)⟩
    · refine ⟨State.pushBit_lt s v, State.pushBit_ld s v, fun _ lt ld => ?_⟩
      exact (exec_pushBit (hP' lt ld) v).trans (congrArg _ (State.pushBit_withTicks s lt ld v))
    · refine ⟨State.dispatch_lt s sym, State.dispatch_ld s sym, fun _ lt ld => ?_⟩
      exact (exec_instr (hP' lt ld) sym).trans (congrArg _ (State.dispatch_withTicks s lt ld sym))
    · exact absurd rfl (hfall k)
    · exact absurd rfl (hrise k)
    · exact absurd rfl (hreadFall k)
    · exact absurd rfl (hreadRise k)

/-! ## The cursor and the published copy (R15, R19) -/

/-- What R15 and R19 say of one state. -/
structure CursorAndPublication (s : State) : Prop where
  inRange : s.nbyte ≤ s.cfg.frameBytes
  fullAtByteStart : s.nbyte = s.cfg.frameBytes → s.nbit = 0
  published : ∀ a, s.pubByte a = s.frameByte a

theorem State.hardReset_cursorAndPublication (s : State) : CursorAndPublication s.hardReset :=
  ⟨Nat.zero_le _, fun _ => rfl, fun _ => rfl⟩

theorem exec_reset_next {s t : State} (h : exec .reset s = .next t) : t = s.hardReset := by
  obtain ⟨P, -, hk⟩ := State.onDecoder_next h
  cases hk
  rfl

/-- A full buffer stays full, with the cursor where it is, or the cursor goes back to `(0,0)` (R15). -/
theorem exec_cursor_of_full {i : Instr} {s t : State} (h : exec i s = .next t) (hfull : s.full = true) :
    (t.nbyte = s.nbyte ∧ t.nbit = s.nbit) ∨ (t.nbyte = 0 ∧ t.nbit = 0) := by
  cases hreset : s.resetsCursor i
  · exact .inl ((exec_bufferStep h).kept (State.writesBit_of_full hfull i) hreset)
  · exact .inr ((exec_bufferStep h).reset hreset).2

/-- A written bit leaves the cursor in range, since there was room for it, and publishes the whole buffer. -/
theorem cursorAndPublication_of_writesBit {i : Instr} {s t : State} (h : exec i s = .next t)
    (hwrite : s.writesBit i = true) : CursorAndPublication t := by
  obtain ⟨v, hroom, -, hframe, hpub, hnbyte, hnbit, -⟩ := (exec_bufferStep h).written hwrite
  have hlt := (State.full_eq_false_iff s).1 hroom
  rw [State.pushBit_of_not_full v hroom] at hframe hpub hnbyte hnbit
  refine ⟨?_, ?_, fun a => by rw [State.pubByte, State.frameByte, hframe, hpub]⟩
  · rw [hnbyte, exec_cfg h]
    dsimp only
    split <;> omega
  · rw [hnbyte, hnbit, exec_cfg h]
    dsimp only
    split
    · exact fun _ => rfl
    · omega

/-- An operation that writes no bit, other than RESET, moves the cursor at most to `(0,0)` and leaves both buffers. -/
theorem CursorAndPublication.exec_of_not_writesBit {i : Instr} {s t : State} (hs : CursorAndPublication s)
    (h : exec i s = .next t) (hi : i ≠ .reset) (hwrite : s.writesBit i = false) : CursorAndPublication t := by
  obtain ⟨hframe, hpub⟩ := exec_buffers_of_not_writesBit h hi hwrite
  have hcfg := exec_cfg h
  have hpublished (a : Nat) : t.pubByte a = t.frameByte a := by
    rw [State.pubByte_congr hpub hcfg, State.frameByte_congr hframe hcfg, hs.published]
  cases hreset : s.resetsCursor i
  · obtain ⟨hnbyte, hnbit⟩ := (exec_bufferStep h).kept hwrite hreset
    refine ⟨?_, ?_, hpublished⟩
    · rw [hnbyte, hcfg]; exact hs.inRange
    · rw [hnbyte, hnbit, hcfg]; exact hs.fullAtByteStart
  · obtain ⟨-, hnbyte, hnbit⟩ := (exec_bufferStep h).reset hreset
    exact ⟨by omega, fun _ => hnbit, hpublished⟩

/-- Every operation keeps R15 and R19. -/
theorem CursorAndPublication.exec {i : Instr} {s t : State} (hs : CursorAndPublication s)
    (h : exec i s = .next t) : CursorAndPublication t := by
  by_cases hi : i = .reset
  · subst hi
    rw [exec_reset_next h]
    exact s.hardReset_cursorAndPublication
  · cases hwrite : s.writesBit i
    · exact hs.exec_of_not_writesBit h hi hwrite
    · exact cursorAndPublication_of_writesBit h hwrite

/-- Settles O53: RESET establishes R15 and R19, every operation keeps them, and a full cursor only leaves for
`(0,0)`. -/
theorem cursorAndPublicationHoldAfterReset : Obligations.CursorAndPublicationHoldAfterReset := by
  intro s t P is hP h
  rw [execAll_cons_next (exec_reset hP)] at h
  have ht : CursorAndPublication t :=
    execAll_induct (fun _ _ _ _ hu hx => hu.exec hx) s.hardReset_cursorAndPublication h
  refine ⟨ht.inRange, Nat.le_of_lt_succ t.nbit.isLt, ht.fullAtByteStart, fun i u hN hu => ?_, ht.published⟩
  have hcursor := exec_cursor_of_full hu ((State.full_iff t).2 hN.ge)
  rwa [ht.fullAtByteStart hN] at hcursor

end Sys2Proof.Machine
end

section
/-! PROOFS. The encoding (30_encoding.md): what the command words and the SYM codes select, the same-cycle commands,
and the output bus. -/

namespace Sys2Proof

/-! ## The command word (R47, R48, R56) -/

/-- R48, CMD `1---`: with `rst` set nothing else is looked at. -/
theorem decodeCmd_of_rst {c : BitVec 4} (h : c.getLsbD 3 = true) (t : Nat) : decodeCmd c t = .reset := by
  simp [decodeCmd, h]

/-- R48, CMD `000-` and `010-`: without `ev_valid` neither `ev_level` nor the tick is looked at. -/
theorem decodeCmd_of_no_event {c : BitVec 4} (h : c.getLsbD 1 = false) (t : Nat) :
    decodeCmd c t = if c.getLsbD 3 then .reset else if c.getLsbD 2 then .read else .idle := by
  rw [decodeCmd, h]
  cases c.getLsbD 3 <;> cases c.getLsbD 2 <;> rfl

/-- `rst` is the most significant bit of the command word (R47). -/
theorem rst_of_eight_le {c : BitVec 4} (h : 8 ≤ c.toNat) : c.getLsbD 3 = true := by
  have hmsb : c.msb = true := by rw [BitVec.msb_eq_decide]; exact decide_eq_true h
  rwa [BitVec.msb_eq_getLsbD_last] at hmsb

/-- R51: the port hands the decoder the command word and its tick's `TICK_W` bits. -/
theorem decodePort_of_decodeCmd {w t : Nat} {c : BitVec 4} {i : Instr} (h : decodeCmd c (t % 2 ^ w) = i) :
    decodePort w ⟨c, t⟩ = i := h

/-- Settles O4: with `rst` set, or without `ev_valid`, the decoded operation is a function of the other bits. -/
theorem ignoredBitsChangeNothing : Obligations.IgnoredBitsChangeNothing := by
  refine ⟨fun w p q hp hq => ?_, fun w p q hrst hrd hp hq => ?_, decodePort_wellFormed, by decide⟩
  · rw [decodePort, decodePort, decodeCmd_of_rst hp, decodeCmd_of_rst hq]
  · rw [decodePort, decodePort, decodeCmd_of_no_event hp, decodeCmd_of_no_event hq, hrst, hrd]

/-! ## The SYM code (R54) -/

theorem Symbol.decodeSym_code (sym : Symbol) : decodeSym sym.code = sym := by
  cases sym <;> rfl

/-- R54: no operation of a symbol is on a port. -/
theorem Symbol.encode_instr (sym : Symbol) : encode sym.instr = none := by
  cases sym <;> rfl

theorem Symbol.instr_ne_reset (sym : Symbol) : sym.instr ≠ .reset := by
  cases sym <;> simp [Symbol.instr]

namespace Machine

/-! ## READ and a transition in one cycle (R49, R50) -/

/-- A READ before an operation whose arm is `s.onDecoder (fun P => k P s)` is that arm on the state that READ left. -/
theorem execAll_read_cons {i : Instr} {k : CalibrationProfile → State → Result}
    (hi : ∀ u : State, exec i u = u.onDecoder fun P => k P u) (s : State) :
    execAll [.read, i] s = s.onDecoder fun P => k P s.readAndClear := by
  cases hP : s.profile with
  | none =>
    have hread : exec .read s = .refused .noDecoder := State.onDecoder_none hP _
    rw [execAll_cons_refused hread, State.onDecoder_none hP]
  | some P =>
    have hP' : s.readAndClear.profile = some P := hP
    rw [execAll_cons_next (exec_read hP), execAll_one, hi, State.onDecoder_some hP', State.onDecoder_some hP]

/-- R49, on a decoder or not. -/
theorem exec_readFall_eq_execAll (t : Nat) (s : State) : exec (.readFall t) s = execAll [.read, .fall t] s :=
  (execAll_read_cons (k := fun P u => u.onTransition P .low t) (fun _ => rfl) s).symm

/-- R50, on a decoder or not. -/
theorem exec_readRise_eq_execAll (t : Nat) (s : State) : exec (.readRise t) s = execAll [.read, .rise t] s :=
  (execAll_read_cons (k := fun P u => u.onTransition P .high t) (fun _ => rfl) s).symm

/-- Settles O1: the words with `rst` by `decodeCmd_of_rst`, the eight others by evaluation. -/
theorem commandWordsDecodeAsTabled : Obligations.CommandWordsDecodeAsTabled := by
  refine ⟨fun w t c hc => decodeCmd_of_rst (rst_of_eight_le hc) _, fun w t => ?_,
    fun t s => ⟨exec_readFall_eq_execAll t s, exec_readRise_eq_execAll t s⟩⟩
  refine ⟨?_, ?_, ?_, ?_, ?_, ?_, ?_, ?_⟩ <;> exact decodePort_of_decodeCmd rfl

/-- Settles O37: READ, then FALL's stamping and nothing else. -/
theorem readFallReadsThenFalls : Obligations.ReadFallReadsThenFalls := by
  refine ⟨fun _ _ => decodePort_of_decodeCmd rfl, fun s P t hP hlow hhigh => ?_⟩
  rw [exec_readFall hP, State.onTransition_of_inOrder P .low (s := s.readAndClear) ⟨hlow, hhigh⟩]
  rfl

/-- R16 in one equation, "set wins over clear" (R50): the flag is clear after an operation that clears it, unless that
operation also writes a bit. -/
theorem exec_dirty {i : Instr} {s t : State} (h : exec i s = .next t) :
    t.dirty = (s.writesBit i || (s.dirty && !clearsFlag i)) := by
  cases hwrite : s.writesBit i
  · rw [((exec_bufferStep h).unwritten hwrite).1, Bool.false_or]
  · obtain ⟨v, -, -, -, -, -, -, hdirty⟩ := (exec_bufferStep h).written hwrite
    rw [hdirty, Bool.true_or]

/-- A READ changes at most the flag and the returned value. -/
theorem State.readAndClear_agreeButFlagAndRet (s : State) : AgreeButFlagAndRet s s.readAndClear := rfl

/-- Settles O38: RISE looks neither at the flag nor at the returned value, so after the READ it does what it does
without; the flag is that of `exec_dirty`. -/
theorem readRiseSetWinsOverClear : Obligations.ReadRiseSetWinsOverClear := by
  refine ⟨fun _ _ => decodePort_of_decodeCmd rfl, fun s P t hP hlow hhigh => ?_⟩
  have hrise : exec (.rise t) s = .next ((s.stamp .high t).gate P .high) := by
    rw [exec_rise hP, State.onTransition_of_inOrder P .high ⟨hlow, hhigh⟩]
  have hreadRise : exec (.readRise t) s = .next ((s.readAndClear.stamp .high t).gate P .high) := by
    rw [exec_readRise hP, State.onTransition_of_inOrder P .high (s := s.readAndClear) ⟨hlow, hhigh⟩]
  have hagree : AgreeButFlagAndRet ((s.stamp .high t).gate P .high) ((s.readAndClear.stamp .high t).gate P .high) :=
    (s.readAndClear_agreeButFlagAndRet.stamp .high t).gate P .high
  have hdirty : ((s.readAndClear.stamp .high t).gate P .high).dirty = s.riseWritesBit P t := by
    simp [exec_dirty hreadRise, State.writesBit_readRise hP, clearsFlag]
  have hret : ((s.readAndClear.stamp .high t).gate P .high).ret = .snapshot s.peek.1 s.peek.2 := by
    simp [State.peek]
  refine ⟨_, hrise, ?_, ?_⟩
  · simp [exec_dirty hrise, State.writesBit_rise hP, clearsFlag]
  · rw [hreadRise, hagree, hdirty, hret]

/-! ## IDLE (R53) -/

/-- Settles O35: both words of IDLE decode to it, whatever the tick. -/
theorem idleChangesNothing : Obligations.IdleChangesNothing := by
  refine fun s P hP => ⟨exec_idle hP, fun c tick rest hc hinputs => ?_⟩
  have hidle : decodePort s.cfg.tickW ⟨c, tick⟩ = .idle := by
    rcases hc with rfl | rfl <;> exact decodePort_of_decodeCmd rfl
  rw [step_cons hP hinputs, hidle]
  exact exec_idle (s := { s with inputs := rest }) hP

/-! ## What the operation of a symbol writes (R54) -/

/-- R54, `sym[1]`: a bit is to be written, and is if there is room. -/
theorem State.writesBit_instr (s : State) (sym : Symbol) :
    s.writesBit sym.instr = (sym.code.getLsbD 1 && !s.full) := by
  cases sym <;> simp [Symbol.instr, Symbol.code, State.writesBit]

/-- R54, `sym[0]`: the value of the bit to be written. -/
theorem exec_instr_eq_pushBit {sym : Symbol} (h : sym.code.getLsbD 1 = true) (s : State) :
    exec sym.instr s = exec (.pushBit (sym.code.getLsbD 0)) s := by
  cases sym with
  | noSym => cases h
  | frameReset => cases h
  | bit0 => rfl
  | bit1 => rfl

/-- Settles O5: an operation that writes no bit leaves both buffers, by `exec_buffers_of_not_writesBit`. -/
theorem symbolCodeSaysWhatToDo : Obligations.SymbolCodeSaysWhatToDo := by
  refine ⟨rfl, rfl, rfl, rfl, fun sym => ⟨Symbol.decodeSym_code sym, Symbol.encode_instr sym,
    exec_instr_eq_pushBit, fun hcode s t h => ?_⟩⟩
  exact exec_buffers_of_not_writesBit h (Symbol.instr_ne_reset sym) (by rw [State.writesBit_instr, hcode]; rfl)

/-! ## The output bus (R61) -/

theorem Memory.bytes_getD {c : Config} (m : Memory) {i : Nat} (h : i < c.frameBytes) :
    (m.bytes c).getD i 0 = m.read c i := by
  simp [Memory.bytes, List.getD, h]

/-- Bit `j` of byte `i` stands at `8 * i + j` of the number that the bytes spell. -/
theorem frameBus_testBit (bs : List Byte) (i : Nat) {j : Nat} (hj : j < 8) :
    (frameBus bs).testBit (8 * i + j) = (bs.getD i 0).getLsbD j := by
  induction bs generalizing i with
  | nil => simp [frameBus]
  | cons b rest ih =>
    rw [frameBus, Nat.add_comm, Nat.testBit_two_pow_mul_add _ b.isLt]
    cases i with
    | zero => simp [hj, BitVec.testBit_toNat]
    | succ i =>
      rw [if_neg (by omega), show 8 * (i + 1) + j - 8 = 8 * i + j by omega, ih, List.getD_cons_succ]

/-- R61, bit for bit. -/
theorem State.frameO_getLsbD {s : State} {i j : Nat} (hi : i < s.cfg.frameBytes) (hj : j < 8) :
    s.frameO.getLsbD (8 * i + j) = (s.pubByte i).getLsbD j := by
  have hlt : 8 * i + j < 8 * s.cfg.frameBytes := by omega
  rw [State.frameO, BitVec.getLsbD_ofNat, frameBus_testBit _ _ hj, Memory.bytes_getD _ hi, decide_eq_true hlt,
    Bool.true_and, State.pubByte]

/-- Settles O39: the slice of eight bits is the byte because each of its bits is. -/
theorem outputBusCarriesThePublishedBytes : Obligations.OutputBusCarriesThePublishedBytes := by
  refine fun s i hi => ⟨BitVec.eq_of_getLsbD_eq fun j hj => ?_, fun j hj => State.frameO_getLsbD hi hj⟩
  rw [BitVec.getLsbD_extractLsb', decide_eq_true hj, Bool.true_and, State.frameO_getLsbD hi hj]

end Machine

end Sys2Proof
end

section
/-! PROOFS. Calibration (40_calibration.md): the conversion to ticks, the windows it gives, what CALIBRATE answers, and
the default profile. -/

namespace Sys2Proof

/-! ## The conversion to ticks (R66) -/

theorem ticksFloor_eq_div (f x : Nat) : ticksFloor f x = x * f / 1000000000 := rfl

/-- R66: the quotient by `cycle_ns` is a quotient of two naturals, so its floor is the division of naturals. -/
theorem ticksFloor_eq_floor (f x : Nat) : (ticksFloor f x : ℤ) = ⌊(x : ℚ) / (1000000000 / (f : ℚ))⌋ := by
  have hquot : (x : ℚ) / (1000000000 / (f : ℚ)) = ((x * f : ℕ) : ℚ) / ((1000000000 : ℕ) : ℚ) := by
    rw [div_div_eq_mul_div]
    push_cast
    rfl
  rw [hquot, Rat.floor_natCast_div_natCast, ticksFloor_eq_div, Int.natCast_div]

/-- Settles O7: the first equation by `ticksFloor_eq_floor`; it needs no frequency of at least 1. -/
theorem tickConversionIsExact : Obligations.TickConversionIsExact :=
  fun f x _ => ⟨ticksFloor_eq_floor f x, ticksFloor_eq_div f x⟩

/-- A number of ticks is above the converted duration exactly when it lasts longer. -/
theorem ticksFloor_lt_iff {f x d : Nat} : ticksFloor f x < d ↔ x * f < d * 1000000000 :=
  Nat.div_lt_iff_lt_mul (by decide)

theorem ticksFloor_mono {f g : Nat} (h : f ≤ g) (x : Nat) : ticksFloor f x ≤ ticksFloor g x :=
  Nat.div_le_div_right (Nat.mul_le_mul_left x h)

/-! ## Windows (R70, R71, R95, R103) -/

/-- R104: a window that starts at 1 or later does not hold the duration 0. -/
theorem inWindow_zero {w : TimingWindow} (h : 1 ≤ w.min) : inWindow 0 w = false := by
  rw [← Bool.not_eq_true, Machine.inWindow_iff]
  omega

/-- R103: no duration is past the minimum and before the maximum of an empty window. -/
theorem inWindow_of_max_lt_min {w : TimingWindow} (h : w.max < w.min) (d : Nat) : inWindow d w = false := by
  rw [← Bool.not_eq_true, Machine.inWindow_iff]
  omega

theorem lt_of_inWindow {d n : Nat} {w : TimingWindow} (hd : inWindow d w = true) (h : w.max < n) : d < n :=
  ((Machine.inWindow_iff d w).1 hd).2.trans_lt h

theorem one_le_calibratedWindow_min (f tolNs nominal : Nat) : 1 ≤ (calibratedWindow f tolNs nominal).min :=
  Nat.le_add_left 1 _

/-- R71: the two bounds of a window are `2 * TOL_NS` apart, and where that is a tick or more their floors differ. -/
theorem calibratedWindow_min_le_max {f tolNs nominal : Nat} (htol : tolNs ≤ nominal)
    (hf : 1000000000 ≤ 2 * tolNs * f) :
    (calibratedWindow f tolNs nominal).min ≤ (calibratedWindow f tolNs nominal).max := by
  obtain ⟨low, rfl⟩ := Nat.exists_eq_add_of_le' htol
  calc ticksFloor f (low + tolNs - tolNs) + 1
      = (low * f + 1000000000) / 1000000000 := by
        rw [Nat.add_sub_cancel, ticksFloor_eq_div, Nat.add_div_right _ (by decide)]
    _ ≤ ticksFloor f (low + tolNs + tolNs) := Nat.div_le_div_right (by linarith)

/-- Both bounds of a window rise with the frequency: over a range of frequencies it is enough to compare the largest
minimum with the smallest maximum. -/
theorem calibratedWindow_min_le_max_of_between {fLow f fHigh tolNs nominal : Nat}
    (hlow : fLow ≤ f) (hhigh : f ≤ fHigh)
    (h : (calibratedWindow fHigh tolNs nominal).min ≤ (calibratedWindow fLow tolNs nominal).max) :
    (calibratedWindow f tolNs nominal).min ≤ (calibratedWindow f tolNs nominal).max :=
  calc (calibratedWindow f tolNs nominal).min
      ≤ (calibratedWindow fHigh tolNs nominal).min := Nat.succ_le_succ (ticksFloor_mono hhigh _)
    _ ≤ (calibratedWindow fLow tolNs nominal).max := h
    _ ≤ (calibratedWindow f tolNs nominal).max := ticksFloor_mono hlow _

/-- R4: the tolerance is at most every nominal duration. -/
theorem Config.tolNs_le_of_withinSpec {c : Config} (h : c.withinSpec = true) :
    c.tolNs ≤ c.t0hNs ∧ c.tolNs ≤ c.t0lNs ∧ c.tolNs ≤ c.t1hNs ∧ c.tolNs ≤ c.t1lNs := by
  simp only [Config.withinSpec, Bool.and_eq_true, decide_eq_true_eq] at h
  obtain ⟨⟨⟨⟨⟨⟨-, h0h⟩, h0l⟩, h1h⟩, h1l⟩, -⟩, -⟩ := h
  exact ⟨h0h, h0l, h1h, h1l⟩

/-- R71, for the four windows. -/
theorem profileFor_min_le_max {c : Config} {f : Nat}
    (htol : c.tolNs ≤ c.t0hNs ∧ c.tolNs ≤ c.t0lNs ∧ c.tolNs ≤ c.t1hNs ∧ c.tolNs ≤ c.t1lNs)
    (hf : 1000000000 ≤ 2 * c.tolNs * f) :
    (profileFor c f).zero.low.min ≤ (profileFor c f).zero.low.max ∧
    (profileFor c f).zero.high.min ≤ (profileFor c f).zero.high.max ∧
    (profileFor c f).one.low.min ≤ (profileFor c f).one.low.max ∧
    (profileFor c f).one.high.min ≤ (profileFor c f).one.high.max := by
  obtain ⟨h0h, h0l, h1h, h1l⟩ := htol
  exact ⟨calibratedWindow_min_le_max h0l hf, calibratedWindow_min_le_max h0h hf,
    calibratedWindow_min_le_max h1l hf, calibratedWindow_min_le_max h1h hf⟩

theorem CalibrationProfile.fits_iff {P : CalibrationProfile} {tickW : Nat} :
    P.fits tickW = true ↔ ∀ v ∈ P.values, v < 2 ^ tickW := by
  simp [CalibrationProfile.fits]

/-! ## The default profile (R71 to R73) -/

section
variable (rows cols : Nat) (fHz : Option Nat) (f : Nat)

/-- R71: from 3333334 Hz on by the guarantee, below it by the windows at 3157895 and 3333333 Hz. -/
theorem profileFor_withDefaults_min_le_max {f : Nat} (hf : 3157894 < f) :
    let P := profileFor (Config.withDefaults rows cols fHz) f
    P.zero.low.min ≤ P.zero.low.max ∧ P.zero.high.min ≤ P.zero.high.max ∧
    P.one.low.min ≤ P.one.low.max ∧ P.one.high.min ≤ P.one.high.max := by
  by_cases hguarantee : 3333334 ≤ f
  · refine profileFor_min_le_max (by simp) ?_
    rw [Config.withDefaults_tolNs]
    omega
  · have hnonempty {nominal : Nat}
        (h : (calibratedWindow 3333333 150 nominal).min ≤ (calibratedWindow 3157895 150 nominal).max) :
        (calibratedWindow f 150 nominal).min ≤ (calibratedWindow f 150 nominal).max :=
      calibratedWindow_min_le_max_of_between (by omega) (by omega) h
    exact ⟨hnonempty (nominal := 850) (by decide), hnonempty (nominal := 400) (by decide),
      hnonempty (nominal := 450) (by decide), hnonempty (nominal := 800) (by decide)⟩

/-- R73: 50000 ns are a 20000th of a second. -/
theorem profileFor_withDefaults_resetThreshold :
    (profileFor (Config.withDefaults rows cols fHz) f).resetThreshold = f / 20000 + 1 := by
  rw [profileFor_withDefaults]
  simp only
  omega

/-- R73: the threshold is the largest of the nine values. -/
theorem profileFor_withDefaults_values_le {v : Nat}
    (hv : v ∈ (profileFor (Config.withDefaults rows cols fHz) f).values) :
    v ≤ (profileFor (Config.withDefaults rows cols fHz) f).resetThreshold := by
  rw [profileFor_withDefaults] at hv ⊢
  simp only [CalibrationProfile.values, List.mem_cons, List.not_mem_nil, or_false] at hv ⊢
  omega

/-- R73: under the default constants a frequency of 64 bits gives a profile of 64-bit values. -/
theorem profileFor_withDefaults_fits {f : Nat} (hf : f < 2 ^ 64) :
    (profileFor (Config.withDefaults rows cols fHz) f).fits 64 = true := by
  refine CalibrationProfile.fits_iff.2 fun v hv => ?_
  have hle := profileFor_withDefaults_values_le rows cols fHz f hv
  rw [profileFor_withDefaults_resetThreshold] at hle
  omega

/-- R72 (a) and (b). -/
theorem profileFor_withDefaults_separated (hf : 1 ≤ f) :
    let P := profileFor (Config.withDefaults rows cols fHz) f
    P.one.low.max < P.zero.low.min ∧ P.zero.low.max < P.resetThreshold ∧ P.one.low.max < P.resetThreshold := by
  rw [profileFor_withDefaults]
  simp only
  omega

end

namespace Machine

/-! ## What CALIBRATE answers (R65, R68, R73, R130) -/

theorem exec_calibrate_refused_iff {s : State} {r : Refusal} :
    exec .calibrate s = .refused r ↔ calibrate s.cfg = .error r := by
  cases h : calibrate s.cfg <;> simp [exec, execCalibrate, h]

theorem exec_calibrate_next_iff {s t : State} :
    exec .calibrate s = .next t ↔ ∃ P, calibrate s.cfg = .ok P ∧ t = { s with profile := some P } := by
  cases h : calibrate s.cfg <;> simp [exec, execCalibrate, h, eq_comm]

/-- R130: the frequencies that raise `CalibrationError`. -/
theorem calibrate_eq_calibrationError_iff {c : Config} {fHz : Option Nat} :
    calibrate c = .error (.calibrationError fHz) ↔ c.fHz = fHz ∧ (fHz = none ∨ fHz = some 0) := by
  unfold calibrate raiseCalibrationError
  split
  · next hf => simpa [hf, eq_comm] using Or.inl
  · next hf => simpa [hf, eq_comm] using Or.inr
  · next f hf =>
    have hne : ¬ (c.fHz = fHz ∧ (fHz = none ∨ fHz = some 0)) := by rintro ⟨rfl, h⟩; simp [hf] at h
    split_ifs <;> simp [hne]

/-- R73: with a frequency and parameters within 00_scope.md only the range of the nine values is left to refuse. -/
theorem calibrate_of_withinSpec {c : Config} {f : Nat} (hf : c.fHz = some f) (hpos : 1 ≤ f)
    (hw : c.withinSpec = true) :
    calibrate c =
      if (profileFor c f).fits c.tickW then .ok (profileFor c f) else .error .profileOutOfRange := by
  obtain ⟨g, rfl⟩ := Nat.exists_eq_add_of_le' hpos
  simp [calibrate, hf, hw]

/-- R73: under the default constants every frequency from 1 to `2^64 - 1` is calibrated. -/
theorem exec_calibrate_withDefaults {s : State} {rows cols f : Nat}
    (hcfg : s.cfg = Config.withDefaults rows cols (some f)) (hrows : 1 ≤ rows) (hcols : 1 ≤ cols) (hpos : 1 ≤ f)
    (hf : f < 2 ^ 64) : exec .calibrate s = .next { s with profile := some (profileFor s.cfg f) } := by
  refine exec_calibrate_ok (calibrate_ok_iff.2 ⟨f, hpos, ?_⟩)
  rw [hcfg]
  exact ⟨rfl, Config.withDefaults_withinSpec _ _ _ hrows hcols, profileFor_withDefaults_fits _ _ _ hf, rfl⟩

/-- Settles O6: the nine values by `calibrate_ok_iff`, the exception by `calibrate_eq_calibrationError_iff`. -/
theorem calibrateComputesTheProfile : Obligations.CalibrateComputesTheProfile := by
  refine ⟨rfl, fun s f hf hpos hw hfits => ?_, fun s f => ?_⟩
  · exact exec_calibrate_ok (calibrate_ok_iff.2 ⟨f, hpos, hf, hw, hfits, rfl⟩)
  · rw [exec_calibrate_refused_iff, calibrate_eq_calibrationError_iff]
    simp

/-- Settles O8: the threshold is the tick after the last one that does not last longer than `TRESET_NS`. -/
theorem resetThresholdIsStrict : Obligations.ResetThresholdIsStrict := by
  intro c P h
  obtain ⟨f, -, hf, -, -, rfl⟩ := calibrate_ok_iff.1 h
  have hiff (d : Nat) : (profileFor c f).resetThreshold ≤ d ↔ c.tresetNs * f < d * 1000000000 :=
    ticksFloor_lt_iff
  exact ⟨f, hf, rfl, fun d => ⟨hiff d, fun heq => by rw [hiff, heq]; exact lt_irrefl _⟩⟩

/-- Settles O10: a profile that does not fit has a value of `2 ^ TICK_W` or more, and the default one fits. -/
theorem profileMustFitTheTickWidth : Obligations.ProfileMustFitTheTickWidth := by
  refine ⟨fun s f hf hpos hw => ?_, fun s rows cols f hrows hcols hpos hlt hcfg => ?_⟩
  · calc exec .calibrate s = .refused .profileOutOfRange
        ↔ ¬ (profileFor s.cfg f).fits s.cfg.tickW = true := by
          rw [exec_calibrate_refused_iff, calibrate_of_withinSpec hf hpos hw]
          split_ifs with hfits <;> simp [hfits]
      _ ↔ ∃ v ∈ (profileFor s.cfg f).values, 2 ^ s.cfg.tickW ≤ v := by
          simp only [CalibrationProfile.fits_iff, not_forall, not_lt, exists_prop]
  · refine ⟨exec_calibrate_withDefaults hcfg hrows hcols hpos hlt, ?_⟩
    rw [hcfg]
    exact ⟨fun _ => profileFor_withDefaults_values_le _ _ _ _, (profileFor_withDefaults_resetThreshold _ _ _ _).le⟩

/-- Settles O11: the answer of CALIBRATE depends on the configuration, which it leaves as it is. -/
theorem calibrationIsPure : Obligations.CalibrationIsPure := by
  intro s t h
  obtain ⟨P, hP, rfl⟩ := exec_calibrate_next_iff.1 h
  exact ⟨rfl, exec_calibrate_ok hP, fun s' hcfg => exec_calibrate_ok (by rw [hcfg, hP])⟩

/-! ## CLASSIFY on calibrated profiles (R70 to R72, R104) -/

theorem classify_eq_bit0_iff {l h : Nat} {P : CalibrationProfile} :
    classify l h P = .bit0 ↔ (inWindow l P.zero.low && inWindow h P.zero.high) = true := by
  unfold classify
  split_ifs with hzero <;> simp [hzero]

/-- A pair of durations that is no bit is a reset or nothing, by its low alone. -/
theorem classify_of_no_bit {l h : Nat} {P : CalibrationProfile}
    (hzero : (inWindow l P.zero.low && inWindow h P.zero.high) = false)
    (hone : (inWindow l P.one.low && inWindow h P.one.high) = false) :
    classify l h P = if P.resetThreshold ≤ l then .frameReset else .noSym := by
  simp [classify, hzero, hone]

/-- Settles O12: every minimum and the threshold is a successor. -/
theorem zeroDurationMatchesNothing : Obligations.ZeroDurationMatchesNothing := by
  intro c P h
  obtain ⟨f, -, -, -, -, rfl⟩ := calibrate_ok_iff.1 h
  have hmin (nominal : Nat) := one_le_calibratedWindow_min f c.tolNs nominal
  have hthreshold : 1 ≤ (profileFor c f).resetThreshold := Nat.le_add_left 1 _
  have hzl : inWindow 0 (profileFor c f).zero.low = false := inWindow_zero (hmin _)
  have hzh : inWindow 0 (profileFor c f).zero.high = false := inWindow_zero (hmin _)
  have hol : inWindow 0 (profileFor c f).one.low = false := inWindow_zero (hmin _)
  have hoh : inWindow 0 (profileFor c f).one.high = false := inWindow_zero (hmin _)
  refine ⟨hmin _, hmin _, hmin _, hmin _, hthreshold, hzl, hzh, hol, hoh, fun h => ?_, fun l => ?_⟩
  · rw [classify_of_no_bit (by rw [hzl, Bool.false_and]) (by rw [hol, Bool.false_and]),
      if_neg (Nat.not_le.2 hthreshold)]
  · exact classify_of_no_bit (by rw [hzh, Bool.and_false]) (by rw [hoh, Bool.and_false])

/-- Settles O13: the guarantee by `profileFor_min_le_max`, the default windows by their values; a profile with an empty
window is calibrated like any other. -/
theorem windowsAreNonEmptyAtHighFrequency : Obligations.WindowsAreNonEmptyAtHighFrequency := by
  refine ⟨fun c f hw hf => ?_, fun rows cols f hf => ?_, fun rows cols => ?_, fun rows cols => ?_,
    fun s rows cols hrows hcols hcfg => ?_⟩
  · exact profileFor_min_le_max (Config.tolNs_le_of_withinSpec hw) hf
  · exact profileFor_withDefaults_min_le_max rows cols (some f) hf
  · rw [profileFor_withDefaults]
  · rw [profileFor_withDefaults]
    decide
  · have hempty : (profileFor s.cfg 1000000).zero.high = ⟨1, 0⟩ := by
      rw [hcfg, profileFor_withDefaults]
    refine ⟨_, exec_calibrate_withDefaults hcfg hrows hcols (by decide) (by decide), hempty, fun l h hbit => ?_⟩
    rw [classify_eq_bit0_iff, hempty, inWindow_of_max_lt_min (by decide) h, Bool.and_false] at hbit
    cases hbit

/-- Settles O14: two checks of one low duration would put it on both sides of a separation of
`profileFor_withDefaults_separated`. -/
theorem defaultWindowsAreSeparated : Obligations.DefaultWindowsAreSeparated := by
  intro rows cols f hf P
  obtain ⟨hlows, hzero, hone⟩ := profileFor_withDefaults_separated rows cols (some f) f hf
  simp only [Bool.and_eq_true]
  refine ⟨hlows, hzero, hone, fun l h => ?_⟩
  refine ⟨fun ⟨⟨hzl, _⟩, hol, _⟩ => ?_, fun ⟨⟨hzl, _⟩, hreset⟩ => ?_, fun ⟨⟨hol, _⟩, hreset⟩ => ?_⟩
  · exact (lt_of_inWindow hol hlows).not_ge ((inWindow_iff _ _).1 hzl).1
  · exact (lt_of_inWindow hzl hzero).not_ge hreset
  · exact (lt_of_inWindow hol hone).not_ge hreset

end Machine

end Sys2Proof
end

section
/-! PROOFS. The Transition Event Handler (41_transition_handler.md): what FALL and RISE do under the precondition of R82,
and which sequences of port samples keep to that precondition. -/

namespace Sys2Proof.Machine

/-! ## The timing step (R81) -/

theorem State.stamp_low_eq (t : Nat) (s : State) :
    s.stamp .low t = { s with ld := ⟨s.ld.low, t - s.lt.high⟩, lt := ⟨t, s.lt.high⟩ } := rfl

theorem State.stamp_high_eq (t : Nat) (s : State) :
    s.stamp .high t = { s with ld := ⟨t - s.lt.low, s.ld.high⟩, lt := ⟨s.lt.low, t⟩ } := rfl

/-- After a FALL a tick not below it is in order. -/
theorem State.stamp_low_inOrder {s : State} {t1 t2 : Nat} (hhigh : s.lt.high ≤ t1) (h12 : t1 ≤ t2) :
    (s.stamp .low t1).lt.low ≤ t2 ∧ (s.stamp .low t1).lt.high ≤ t2 :=
  ⟨h12, hhigh.trans h12⟩

/-! ## FALL (R83, R84) and RISE (R85, R86) with a tick in order -/

section
variable {s : State} {P : CalibrationProfile} (hP : s.profile = some P) {t : Nat} (ht : s.lt.low ≤ t ∧ s.lt.high ≤ t)
include hP ht

/-- R83: a FALL is its timing step and nothing more. -/
theorem exec_fall_of_inOrder : exec (.fall t) s = .next (s.stamp .low t) := by
  rw [exec_fall hP, State.onTransition_of_inOrder P .low ht]
  rfl

/-- R85, R86: a RISE is its timing step and then the action of the symbol of the low just ended. -/
theorem exec_rise_of_inOrder :
    exec (.rise t) s = .next ((s.stamp .high t).dispatch (classify (t - s.lt.low) s.ld.high P)) := by
  rw [exec_rise hP, State.onTransition_of_inOrder P .high ht]
  rfl

theorem exec_rise_eq_exec_instr :
    exec (.rise t) s = exec (classify (t - s.lt.low) s.ld.high P).instr (s.stamp .high t) := by
  have hP' : (s.stamp .high t).profile = some P := hP
  rw [exec_rise_of_inOrder hP ht, exec_instr hP']

/-- R81: the timing of a RISE is the same whatever its symbol does. -/
theorem exec_rise_timing :
    ∃ u, exec (.rise t) s = .next u ∧ u.lt = ⟨s.lt.low, t⟩ ∧ u.ld = ⟨t - s.lt.low, s.ld.high⟩ ∧ u.profile = some P :=
  ⟨_, exec_rise_of_inOrder hP ht, State.dispatch_lt _ _, State.dispatch_ld _ _, (State.dispatch_profile _ _).trans hP⟩

end

/-- Settles O25: the word by evaluation, the state by `exec_fall_of_inOrder`. -/
theorem fallRecordsTheHighPulse : Obligations.FallRecordsTheHighPulse :=
  ⟨fun _ _ => decodePort_of_decodeCmd rfl, fun _ _ _ hP hlow hhigh => exec_fall_of_inOrder hP ⟨hlow, hhigh⟩⟩

/-- Settles O27: the operation of each symbol is the action that its rule names. -/
theorem riseDispatchesExactlyOneAction : Obligations.RiseDispatchesExactlyOneAction := by
  intro s P t hP hlow hhigh u
  have hPu : u.profile = some P := hP
  have hu : s.stamp .high t = u := s.stamp_high_eq t
  rw [exec_rise_eq_exec_instr hP ⟨hlow, hhigh⟩, hu]
  cases classify (t - s.lt.low) s.ld.high P with
  | noSym => exact exec_symNone hPu
  | frameReset => rfl
  | bit0 => rfl
  | bit1 => rfl

/-- Settles O28: the FALL leaves in `ld[HIGH]` the high pulse that it ends, and its own tick in `lt[LOW]`. -/
theorem riseUsesTheHighPulseBeforeTheLow : Obligations.RiseUsesTheHighPulseBeforeTheLow := by
  intro s P t1 t2 hP hlow hhigh h12
  have hP' : (s.stamp .low t1).profile = some P := hP
  rw [execAll_cons_next (exec_fall_of_inOrder hP ⟨hlow, hhigh⟩), execAll_one,
    exec_rise_eq_exec_instr hP' (State.stamp_low_inOrder hhigh h12)]
  rfl

/-- Settles O31: neither a RISE, whatever its symbol does, nor a FALL touches the registers that the next one of its
kind measures from. -/
theorem repeatedLevelsAreTakenLiterally : Obligations.RepeatedLevelsAreTakenLiterally := by
  intro s P t1 t2 hP hlow hhigh h12
  constructor
  · obtain ⟨u, hu, hlt, hld, hPu⟩ := exec_rise_timing hP ⟨hlow, hhigh⟩
    have hinOrder : u.lt.low ≤ t2 ∧ u.lt.high ≤ t2 := by rw [hlt]; exact ⟨hlow.trans h12, h12⟩
    exact ⟨u, hu, by rw [exec_rise_eq_exec_instr hPu hinOrder, State.stamp_high_eq, hlt, hld]⟩
  · have hP' : (s.stamp .low t1).profile = some P := hP
    rw [execAll_cons_next (exec_fall_of_inOrder hP ⟨hlow, hhigh⟩), execAll_one,
      exec_fall_of_inOrder hP' (State.stamp_low_inOrder hhigh h12)]
    rfl

/-! ## Pulses of 0 ticks (R90) -/

theorem classify_zero_low {c : Config} {P : CalibrationProfile} (hP : calibrate c = .ok P) (h : Nat) :
    classify 0 h P = .noSym := by
  obtain ⟨-, -, -, -, -, -, -, -, -, hclassify, -⟩ := zeroDurationMatchesNothing c P hP
  exact hclassify h

theorem classify_zero_high {c : Config} {P : CalibrationProfile} (hP : calibrate c = .ok P) (l : Nat) :
    classify l 0 P = if P.resetThreshold ≤ l then .frameReset else .noSym := by
  obtain ⟨-, -, -, -, -, -, -, -, -, -, hclassify⟩ := zeroDurationMatchesNothing c P hP
  exact hclassify l

/-- Settles O30: a low of 0 ticks is NONE, and a high of 0 ticks leaves only FRAME_RESET and NONE. -/
theorem equalTicksContributeNothing : Obligations.EqualTicksContributeNothing := by
  refine fun s P t hP hcal => ⟨fun hle => ?_, fun hle => ?_, fun hzero => ?_⟩
  · rw [exec_rise_of_inOrder hP ⟨le_rfl, hle⟩, Nat.sub_self, classify_zero_low hcal, State.stamp_high_eq, Nat.sub_self]
    rfl
  · rw [exec_fall_of_inOrder hP ⟨hle, le_rfl⟩, State.stamp_low_eq, Nat.sub_self]
  · rw [State.riseWritesBit, hzero, classify_zero_high hcal]
    split_ifs <;> rfl

/-! ## What a RISE leaves in every field (R85) -/

theorem State.resetsCursor_rise {s : State} {P : CalibrationProfile} (hP : s.profile = some P) (t : Nat) :
    s.resetsCursor (.rise t) = s.riseResetsCursor P t := by
  simp [State.resetsCursor, hP]

/-- R97, R98: the symbol of bit `v` pushes `v`. -/
theorem State.dispatch_bit (s : State) (v : Bool) : s.dispatch (if v then .bit1 else .bit0) = s.pushBit v := by
  cases v <;> rfl

/-- Settles O26: a written bit is the PUSH_BIT of the timestamped state; where none is written, `exec_bufferStep` says
what is left. -/
theorem riseTimesClassifiesAndActs : Obligations.RiseTimesClassifiesAndActs := by
  refine ⟨fun _ _ => decodePort_of_decodeCmd rfl, fun s P t hP hw hlow hhigh => ?_⟩
  have hrise := exec_rise_of_inOrder hP ⟨hlow, hhigh⟩
  have hstep := exec_bufferStep hrise
  rw [State.writesBit_rise hP, State.resetsCursor_rise hP] at hstep
  refine ⟨_, hrise, State.dispatch_lt _ _, State.dispatch_ld _ _, State.dispatch_cfg _ _, State.dispatch_profile _ _,
    State.dispatch_inputs _ _, State.dispatch_ret _ _, fun v hsym hroom => ?_, fun hno => ?_, fun hsym => ?_,
    fun hsym hno => ?_⟩
  · have hfull : (s.stamp .high t).full = false := (State.full_eq_false_iff s).2 hroom
    have hbyte := State.pushBit_frameByte (s := s.stamp .high t) hw hfull v
    rw [hsym, State.dispatch_bit]
    refine ⟨?_, fun a ha => ?_, ?_⟩
    · rw [hbyte, ← shiftIn_toNat]
      exact congrArg _ (if_pos rfl)
    · rw [hbyte]
      exact if_neg (Ne.symm ha)
    · rw [State.pushBit_of_not_full v hfull]
      exact ⟨fun _ => rfl, rfl, rfl, rfl⟩
  · obtain ⟨hdirty, hbuffers⟩ := hstep.unwritten hno
    obtain ⟨hframe, hpub⟩ := hbuffers rfl
    exact ⟨hframe, hpub, hdirty.trans (Bool.and_true _)⟩
  · exact (hstep.reset (decide_eq_true hsym)).2
  · exact hstep.kept hno (decide_eq_false hsym)

/-! ## The order of the ticks (R82) -/

theorem State.lastTick_le_iff {s : State} {t : Nat} : s.lastTick ≤ t ↔ s.lt.low ≤ t ∧ s.lt.high ≤ t := max_le_iff

/-- R10: a transition in order makes its own tick the latest, whatever its symbol does. -/
theorem State.lastTick_gate_stamp (P : CalibrationProfile) (v : Level) {t : Nat} {s : State}
    (h : s.lt.low ≤ t ∧ s.lt.high ≤ t) : ((s.stamp v t).gate P v).lastTick = t := by
  rw [State.lastTick, State.gate_lt]
  cases v with
  | low => exact max_eq_left h.2
  | high => exact max_eq_right h.1

/-- R82, U1: a transition completes, and then is the latest, or its tick is below the latest and it is refused. -/
theorem State.onTransition_outcome (P : CalibrationProfile) (v : Level) (t : Nat) (s : State) :
    (decide (s.lastTick ≤ t) = true ∧ ∃ u, s.onTransition P v t = .next u ∧ u.lastTick = t) ∨
    (decide (s.lastTick ≤ t) = false ∧ s.onTransition P v t = .refused .tickDecreased) := by
  rw [decide_eq_true_iff, decide_eq_false_iff_not, State.lastTick_le_iff]
  obtain ⟨hlow, hhigh, hnext⟩ | hrefused := State.onTransition_cases (P := P) (v := v) (t := t) (s := s)
  · exact .inl ⟨⟨hlow, hhigh⟩, _, hnext, State.lastTick_gate_stamp P v ⟨hlow, hhigh⟩⟩
  · exact .inr hrefused

/-- Everything a command can do to the order of the ticks: only a transition below the latest tick is refused. -/
theorem exec_command_outcome {i : Instr} {s : State} {P : CalibrationProfile} (hP : s.profile = some P)
    (hi : i.isCommand = true) :
    (tickAllowed s.lastTick i = true ∧ ∃ t, exec i s = .next t ∧ t.lastTick = tickAfter s.lastTick i) ∨
    (tickAllowed s.lastTick i = false ∧ exec i s = .refused .tickDecreased) := by
  cases i with
  | reset => exact .inl ⟨rfl, _, exec_reset hP, rfl⟩
  | idle => exact .inl ⟨rfl, _, exec_idle hP, rfl⟩
  | read => exact .inl ⟨rfl, _, exec_read hP, rfl⟩
  | fall t => rw [exec_fall hP]; exact State.onTransition_outcome P .low t s
  | rise t => rw [exec_rise hP]; exact State.onTransition_outcome P .high t s
  | readFall t => rw [exec_readFall hP]; exact State.onTransition_outcome P .low t s.readAndClear
  | readRise t => rw [exec_readRise hP]; exact State.onTransition_outcome P .high t s.readAndClear
  | _ => cases hi

theorem exec_command_profile {i : Instr} {s t : State} (h : exec i s = .next t) (hi : i.isCommand = true) :
    t.profile = s.profile :=
  (exec_configuration h).2 (by rintro rfl; cases hi)

/-- R82 along a sequence of port samples: it completes while the ticks are in order, and is refused where they are
not. -/
theorem execAll_decodePort_outcome (ps : List PortSample) {s : State} {P : CalibrationProfile}
    (hP : s.profile = some P) :
    (ticksInOrder s.cfg.tickW s.lastTick ps = true ∧
      ∃ t, execAll (ps.map (decodePort s.cfg.tickW)) s = .next t) ∨
    (ticksInOrder s.cfg.tickW s.lastTick ps = false ∧
      execAll (ps.map (decodePort s.cfg.tickW)) s = .refused .tickDecreased) := by
  induction ps generalizing s with
  | nil => exact .inl ⟨rfl, s, rfl⟩
  | cons p rest ih =>
    have hi := (decodePort_wellFormed s.cfg.tickW p).1
    rw [ticksInOrder, List.map_cons]
    obtain ⟨hallowed, u, hu, hlast⟩ | ⟨hallowed, hrefused⟩ := exec_command_outcome hP hi
    · have hrest := ih ((exec_command_profile hu hi).trans hP)
      rw [exec_cfg hu, hlast] at hrest
      rwa [hallowed, Bool.true_and, execAll_cons_next hu]
    · exact .inr ⟨by rw [hallowed, Bool.false_and], execAll_cons_refused hrefused _⟩

/-- Settles O29: RESET makes 0 the latest tick, and `execAll_decodePort_outcome` says the rest. -/
theorem decreasingTickHasNoSuccessor : Obligations.DecreasingTickHasNoSuccessor := by
  intro s P ps hP
  rw [execAll_cons_next (exec_reset hP)]
  have hP' : s.hardReset.profile = some P := hP
  have hrun := execAll_decodePort_outcome ps hP'
  rw [State.hardReset_cfg, show s.hardReset.lastTick = 0 from rfl] at hrun
  obtain ⟨horder, hnext⟩ | ⟨horder, hrefused⟩ := hrun
  · simp [horder, hnext]
  · simp [horder, hrefused]

end Sys2Proof.Machine
end

section
/-! PROOFS. The Timing Classifier (42_classifier.md): which pair of durations each symbol stands for, and the action of
each symbol. -/

namespace Sys2Proof

/-- Checks a and b of R96: both durations of a pair are in the windows of a bit. -/
def SymbolTiming.Accepts (T : SymbolTiming) (l h : Nat) : Prop := inWindow l T.low = true ∧ inWindow h T.high = true

/-- R95: the bounds of both windows belong to them. -/
theorem SymbolTiming.accepts_iff {T : SymbolTiming} {l h : Nat} :
    T.Accepts l h ↔ T.low.min ≤ l ∧ l ≤ T.low.max ∧ T.high.min ≤ h ∧ h ≤ T.high.max := by
  rw [SymbolTiming.Accepts, Machine.inWindow_iff, Machine.inWindow_iff, and_assoc]

namespace Machine

/-! ## The order of the checks (R96, R101, R102) -/

theorem classify_of_accepts_zero {l h : Nat} {P : CalibrationProfile} (hzero : P.zero.Accepts l h) :
    classify l h P = .bit0 :=
  classify_eq_bit0_iff.2 (Bool.and_eq_true_iff.2 hzero)

theorem classify_of_accepts_one {l h : Nat} {P : CalibrationProfile} (hzero : ¬ P.zero.Accepts l h)
    (hone : P.one.Accepts l h) : classify l h P = .bit1 := by
  rw [classify, if_neg (mt Bool.and_eq_true_iff.1 hzero), if_pos (Bool.and_eq_true_iff.2 hone)]

theorem classify_of_accepts_none {l h : Nat} {P : CalibrationProfile} (hzero : ¬ P.zero.Accepts l h)
    (hone : ¬ P.one.Accepts l h) :
    classify l h P = if P.resetThreshold ≤ l then .frameReset else .noSym :=
  classify_of_no_bit (Bool.eq_false_iff.2 (mt Bool.and_eq_true_iff.1 hzero))
    (Bool.eq_false_iff.2 (mt Bool.and_eq_true_iff.1 hone))

/-- The pairs of each symbol: those that its own check holds of and no earlier one. -/
theorem classify_eq_iff (l h : Nat) (P : CalibrationProfile) :
    (classify l h P = .bit0 ↔ P.zero.Accepts l h) ∧
    (classify l h P = .bit1 ↔ ¬ P.zero.Accepts l h ∧ P.one.Accepts l h) ∧
    (classify l h P = .frameReset ↔ ¬ P.zero.Accepts l h ∧ ¬ P.one.Accepts l h ∧ P.resetThreshold ≤ l) ∧
    (classify l h P = .noSym ↔ ¬ P.zero.Accepts l h ∧ ¬ P.one.Accepts l h ∧ ¬ P.resetThreshold ≤ l) := by
  by_cases hzero : P.zero.Accepts l h
  · simp [classify_of_accepts_zero hzero, hzero]
  by_cases hone : P.one.Accepts l h
  · simp [classify_of_accepts_one hzero hone, hzero, hone]
  rw [classify_of_accepts_none hzero hone]
  by_cases hreset : P.resetThreshold ≤ l <;> simp [hzero, hone, hreset]

/-- Settles O15: `classify_eq_iff` with the bounds of the windows written out. -/
theorem classifierFollowsTheCheckOrder : Obligations.ClassifierFollowsTheCheckOrder := by
  intro l h P a b c
  have hzero : P.zero.Accepts l h ↔ a := SymbolTiming.accepts_iff
  have hone : P.one.Accepts l h ↔ b := SymbolTiming.accepts_iff
  rw [← hzero, ← hone]
  exact classify_eq_iff l h P

/-- Settles O16: a duration in the window would be at least its minimum and at most its maximum. -/
theorem emptyWindowContainsNothing : Obligations.EmptyWindowContainsNothing :=
  fun d _ hempty => inWindow_of_max_lt_min hempty d

/-! ## The actions of the symbols (R97 to R100) -/

/-- R109: a PUSH_BIT that finds room sets the flag. -/
theorem State.pushBit_dirty_of_room {s : State} (v : Bool) (hroom : s.nbyte < s.cfg.frameBytes) :
    (s.pushBit v).dirty = true := by
  rw [State.pushBit_of_not_full v (s.full_eq_false_iff.2 hroom)]

/-- R97, R98: the operation of the symbol of bit `v` completes as PUSH_BIT(v). -/
theorem exec_bit_instr {s : State} {P : CalibrationProfile} (hP : s.profile = some P) (v : Bool) :
    ∃ t, exec (Symbol.instr (if v then .bit1 else .bit0)) s = .next t ∧ exec (.pushBit v) s = .next t ∧
      (s.nbyte < s.cfg.frameBytes → t.dirty = true) ∧ (s.cfg.frameBytes ≤ s.nbyte → t = s) := by
  refine ⟨s.pushBit v, ?_, exec_pushBit hP v, State.pushBit_dirty_of_room v, fun hfull => ?_⟩
  · rw [exec_instr hP, State.dispatch_bit]
  · exact State.pushBit_of_full v (s.full_iff.2 hfull)

/-- Settles O18: the actions by the arms of `exec`, the codes by evaluation, the conditions by `classify_eq_iff`. -/
theorem symbolsPerformTheirActions : Obligations.SymbolsPerformTheirActions := by
  intro s P hP
  exact ⟨exec_bit_instr hP false, exec_bit_instr hP true, ⟨exec_symFrameReset hP, exec_resetCursor hP⟩,
    exec_symNone hP, rfl, rfl, rfl, rfl, fun l h => classify_eq_iff l h P⟩

end Machine

end Sys2Proof
end

section
/-! PROOFS. The Bit Assembler (43_bit_assembler.md): what one PUSH_BIT and a sequence of them do to the cursor and the
bytes, and what RESET_CURSOR does. -/

namespace Sys2Proof.Machine

/-! ## One PUSH_BIT (R105 to R109) -/

theorem exec_pushBit_of_full {s : State} {P : CalibrationProfile} (hP : s.profile = some P) (v : Bool)
    (hfull : s.cfg.frameBytes ≤ s.nbyte) : exec (.pushBit v) s = .next s := by
  rw [exec_pushBit hP, State.pushBit_of_full v (s.full_iff.2 hfull)]

/-- R108: the cursor after a PUSH_BIT that finds room. -/
theorem State.pushBit_cursor {s : State} (v : Bool) (hroom : s.full = false) :
    (s.nbit = 7 → (s.pushBit v).nbyte = s.nbyte + 1 ∧ (s.pushBit v).nbit = 0) ∧
    (s.nbit ≠ 7 → (s.pushBit v).nbyte = s.nbyte ∧ (s.pushBit v).nbit.toNat = s.nbit.toNat + 1) := by
  rw [State.pushBit_of_not_full v hroom]
  refine ⟨fun h7 => ⟨if_pos h7, if_pos h7⟩, fun h7 => ⟨if_neg h7, ?_⟩⟩
  dsimp only
  rw [if_neg h7]
  bv_omega

/-- R109: a PUSH_BIT that finds room publishes the whole buffer. -/
theorem State.pushBit_pub_of_room {s : State} (v : Bool) (hroom : s.full = false) :
    (s.pushBit v).pub = (s.pushBit v).frame := by
  rw [State.pushBit_of_not_full v hroom]

theorem State.pushBit_frame_wellFormed {s : State} (v : Bool) (hw : s.frame.wellFormed s.cfg = true) :
    (s.pushBit v).frame.wellFormed s.cfg = true := by
  cases hfull : s.full
  · rw [State.pushBit_of_not_full v hfull]
    exact Memory.write_wellFormed hw (s.full_eq_false_iff.1 hfull)
  · rwa [State.pushBit_of_full v hfull]

/-- Settles O19: PUSH_BIT is `State.pushBit`; its byte is `shiftIn`, its cursor that of `State.pushBit_cursor`. -/
theorem pushBitWritesPublishesAndAdvances : Obligations.PushBitWritesPublishesAndAdvances := by
  refine fun s P v hP hw => ⟨rfl, exec_pushBit_of_full hP v, fun hlt => ?_⟩
  have hroom := s.full_eq_false_iff.2 hlt
  have hbyte := State.pushBit_frameByte hw hroom v
  obtain ⟨hroll, hnext⟩ := State.pushBit_cursor v hroom
  refine ⟨s.pushBit v, exec_pushBit hP v, ?_, fun a ha => ?_, fun a => ?_, hroll, hnext,
    State.pushBit_dirty_of_room v hlt, s.pushBit_lt v, s.pushBit_ld v, s.pushBit_cfg v, s.pushBit_profile v,
    s.pushBit_inputs v, s.pushBit_ret v⟩
  · rw [hbyte, if_pos rfl, shiftIn_toNat]
  · rw [hbyte, if_neg (Ne.symm ha)]
  · rw [State.pubByte, State.frameByte, State.pushBit_pub_of_room v hroom]

/-- Settles O20: R15, in the invariant, leaves only `nbyte = N` of the full test. -/
theorem pushBitIntoFullBufferIsDropped : Obligations.PushBitIntoFullBufferIsDropped :=
  fun _ _ v hP => ⟨exec_pushBit_of_full hP v,
    fun hinv => ⟨fun hfull => le_antisymm hinv.cursorInRange hfull, fun hN => hN.ge⟩⟩

/-! ## RESET_CURSOR (R110, R111) -/

/-- Settles O24: the full position by `exec_cursor_of_full`. -/
theorem resetCursorTouchesOnlyTheCursor : Obligations.ResetCursorTouchesOnlyTheCursor :=
  fun s _ hP => ⟨rfl, exec_resetCursor hP, rfl,
    fun _ _ hN h => exec_cursor_of_full h (s.full_iff.2 hN.ge)⟩

/-! ## The cursor (R108) -/

/-- A FRAME_RESET pushes no bit, so a RISE does not do both. -/
theorem State.not_riseResetsCursor_of_riseWritesBit {s : State} {P : CalibrationProfile} {k : Nat}
    (hwrite : s.riseWritesBit P k = true) : ¬ s.riseResetsCursor P k = true := by
  intro hreset
  have hsym : classify (k - s.lt.low) s.ld.high P = .frameReset := of_decide_eq_true hreset
  rw [State.riseWritesBit, hsym] at hwrite
  cases hwrite

theorem State.not_resetsCursor_of_writesBit {s : State} {i : Instr} (hwrite : s.writesBit i = true) :
    ¬ s.resetsCursor i = true := by
  cases i with
  | rise k | readRise k =>
    obtain ⟨P, hP, hrise⟩ := (Option.any_eq_true _ _).1 hwrite
    simpa [State.resetsCursor, hP] using State.not_riseResetsCursor_of_riseWritesBit hrise
  | reset | resetCursor | symFrameReset => cases hwrite
  | _ => simp [State.resetsCursor]

theorem State.resetsCursor_rise_iff {s : State} {P : CalibrationProfile} (hP : s.profile = some P) (k : Nat) :
    s.resetsCursor (.rise k) = true ↔ classify (k - s.lt.low) s.ld.high P = .frameReset := by
  rw [State.resetsCursor_rise hP, State.riseResetsCursor, decide_eq_true_iff]

/-- Settles O48: a written bit moves the cursor as the PUSH_BIT of `exec_bufferStep` does. -/
theorem cursorStepsByOneBitOrResets : Obligations.CursorStepsByOneBitOrResets := by
  refine ⟨fun i s t h => ?_, fun i s ⟨hwrite, hreset⟩ => State.not_resetsCursor_of_writesBit hwrite hreset,
    fun s P k hP => ⟨State.writesBit_rise hP k, State.writesBit_readRise hP k, State.resetsCursor_rise_iff hP k,
      State.resetsCursor_rise_iff hP k⟩,
    fun s hlt => ?_⟩
  · have hstep := exec_bufferStep h
    refine ⟨fun hwrite => ?_, fun hreset => (hstep.reset hreset).2, hstep.kept⟩
    obtain ⟨v, hroom, -, -, -, hnbyte, hnbit, -⟩ := hstep.written hwrite
    rw [hnbyte, hnbit]
    exact ⟨s.full_eq_false_iff.1 hroom, State.pushBit_cursor v hroom⟩
  · have hroom := s.full_eq_false_iff.2 hlt
    simp [State.writesBit, hroom]

/-! ## A sequence of PUSH_BITs -/

/-- The bits `vs` pushed one after the other. -/
def State.pushBits (vs : List Bool) (s : State) : State := vs.foldl (fun u v => u.pushBit v) s

@[simp] theorem State.pushBits_nil (s : State) : s.pushBits [] = s := rfl

@[simp] theorem State.pushBits_cons (v : Bool) (vs : List Bool) (s : State) :
    s.pushBits (v :: vs) = (s.pushBit v).pushBits vs := rfl

theorem State.pushBits_append (vs ws : List Bool) (s : State) :
    s.pushBits (vs ++ ws) = (s.pushBits vs).pushBits ws :=
  List.foldl_append

theorem execAll_pushBit_map {s : State} {P : CalibrationProfile} (hP : s.profile = some P) (vs : List Bool) :
    execAll (vs.map .pushBit) s = .next (s.pushBits vs) := by
  induction vs generalizing s with
  | nil => rfl
  | cons v vs ih =>
    rw [List.map_cons, execAll_cons_next (exec_pushBit hP v)]
    exact ih ((s.pushBit_profile v).trans hP)

@[simp] theorem State.pushBits_cfg (vs : List Bool) (s : State) : (s.pushBits vs).cfg = s.cfg := by
  induction vs generalizing s with
  | nil => rfl
  | cons v vs ih => rw [State.pushBits_cons, ih, State.pushBit_cfg]

theorem State.pushBits_of_full {s : State} (vs : List Bool) (hfull : s.full = true) : s.pushBits vs = s := by
  induction vs with
  | nil => rfl
  | cons v vs ih => rw [State.pushBits_cons, State.pushBit_of_full v hfull, ih]

theorem State.pushBits_frame_wellFormed {s : State} (vs : List Bool) (hw : s.frame.wellFormed s.cfg = true) :
    (s.pushBits vs).frame.wellFormed s.cfg = true := by
  induction vs generalizing s with
  | nil => exact hw
  | cons v vs ih =>
    have hnext := ih (s := s.pushBit v)
    rw [State.pushBit_cfg] at hnext
    exact hnext (State.pushBit_frame_wellFormed v hw)

/-! ## The cursor as one number (R114) -/

/-- The index of the bit that the cursor names, in the order in which bits are written. -/
def State.bitIndex (s : State) : Nat := 8 * s.nbyte + s.nbit.toNat

theorem State.nbyte_eq_bitIndex_div (s : State) : s.nbyte = s.bitIndex / 8 := by
  have := s.nbit.isLt
  unfold State.bitIndex
  omega

theorem State.nbit_eq_bitIndex_mod (s : State) : s.nbit.toNat = s.bitIndex % 8 := by
  have := s.nbit.isLt
  unfold State.bitIndex
  omega

theorem State.full_iff_le_bitIndex (s : State) : s.full = true ↔ 8 * s.cfg.frameBytes ≤ s.bitIndex := by
  rw [State.full_iff, State.nbyte_eq_bitIndex_div]
  omega

/-- R108: the rolling cursor is a counter of bits. -/
theorem State.pushBit_bitIndex {s : State} (v : Bool) (hroom : s.full = false) :
    (s.pushBit v).bitIndex = s.bitIndex + 1 := by
  obtain ⟨hroll, hnext⟩ := State.pushBit_cursor v hroom
  unfold State.bitIndex
  by_cases h7 : s.nbit = 7
  · obtain ⟨hnbyte, hnbit⟩ := hroll h7
    rw [hnbyte, hnbit, h7]
    exact Nat.mul_succ 8 s.nbyte
  · obtain ⟨hnbyte, hnbit⟩ := hnext h7
    rw [hnbyte, hnbit, Nat.add_assoc]

/-- R114: the counter stops at `8*N`. -/
theorem State.pushBits_bitIndex {s : State} (vs : List Bool) (hle : s.bitIndex ≤ 8 * s.cfg.frameBytes) :
    (s.pushBits vs).bitIndex = min (s.bitIndex + vs.length) (8 * s.cfg.frameBytes) := by
  induction vs generalizing s with
  | nil => exact (min_eq_left hle).symm
  | cons v vs ih =>
    cases hfull : s.full
    · have hlt : ¬ 8 * s.cfg.frameBytes ≤ s.bitIndex := by simp [← State.full_iff_le_bitIndex, hfull]
      have hindex := State.pushBit_bitIndex v hfull
      rw [State.pushBits_cons, ih (by rw [hindex, State.pushBit_cfg]; omega), hindex, State.pushBit_cfg,
        List.length_cons, Nat.add_right_comm, Nat.add_assoc]
    · have hge := s.full_iff_le_bitIndex.1 hfull
      rw [State.pushBits_of_full _ hfull]
      omega

/-- R114: from an index in range, the pushes past `8*N` are dropped. -/
theorem State.pushBits_take {s : State} (vs : List Bool) (hle : s.bitIndex ≤ 8 * s.cfg.frameBytes) :
    s.pushBits (vs.take (8 * s.cfg.frameBytes)) = s.pushBits vs := by
  rcases Nat.le_total vs.length (8 * s.cfg.frameBytes) with hshort | hlong
  · rw [List.take_of_length_le hshort]
  · have hfull : (s.pushBits (vs.take (8 * s.cfg.frameBytes))).full = true := by
      rw [State.full_iff_le_bitIndex, State.pushBits_bitIndex _ hle, State.pushBits_cfg, List.length_take]
      omega
    conv_rhs => rw [← List.take_append_drop (8 * s.cfg.frameBytes) vs, State.pushBits_append]
    exact (State.pushBits_of_full _ hfull).symm

/-- Settles O23: the cursor is the counter of `State.pushBits_bitIndex`, and the pushes after the first `8*N` find a
full buffer. -/
theorem bufferHoldsEightBitsPerByte : Obligations.BufferHoldsEightBitsPerByte := by
  intro s P vs hP hnbyte hnbit
  have hzero : s.bitIndex = 0 := by rw [State.bitIndex, hnbyte, hnbit]; rfl
  have hle : s.bitIndex ≤ 8 * s.cfg.frameBytes := hzero ▸ Nat.zero_le _
  have hindex := State.pushBits_bitIndex vs hle
  rw [hzero, Nat.zero_add] at hindex
  refine ⟨s.pushBits vs, execAll_pushBit_map hP vs, ?_, ?_, ?_, State.pushBits_frame_wellFormed vs⟩
  · rw [State.nbyte_eq_bitIndex_div, hindex]
  · rw [State.nbit_eq_bitIndex_mod, hindex]
  · rw [execAll_pushBit_map hP, State.pushBits_take vs hle]

/-! ## The bits of one byte (R112, R113) -/

/-- The number that the bits of `n` and then `vs` spell, first bit most significant. -/
def bitsValue (n : Nat) (vs : List Bool) : Nat := vs.foldl (fun n v => 2 * n + v.toNat) n

theorem bitsValue_append_one (n : Nat) (vs : List Bool) (v : Bool) :
    bitsValue n (vs ++ [v]) = 2 * bitsValue n vs + v.toNat :=
  List.foldl_append

theorem bitsValue_eq (n : Nat) (vs : List Bool) : bitsValue n vs = 2 ^ vs.length * n + bitsValue 0 vs := by
  induction vs using List.reverseRecOn with
  | nil => simp [bitsValue]
  | append_singleton vs v ih =>
    rw [bitsValue_append_one, bitsValue_append_one, ih, List.length_append, List.length_singleton]
    ring

theorem bitsValue_zero_lt (vs : List Bool) : bitsValue 0 vs < 2 ^ vs.length := by
  induction vs using List.reverseRecOn with
  | nil => simp [bitsValue]
  | append_singleton vs v ih =>
    have hv := v.toNat_lt
    rw [bitsValue_append_one, List.length_append, List.length_singleton, Nat.pow_succ]
    omega

/-- The byte that `b` becomes when `vs` are shifted in. -/
def shiftInAll (b : Byte) (vs : List Bool) : Byte := vs.foldl shiftIn b

theorem shiftInAll_append_one (b : Byte) (vs : List Bool) (v : Bool) :
    shiftInAll b (vs ++ [v]) = shiftIn (shiftInAll b vs) v :=
  List.foldl_append

/-- R107 as arithmetic: the shifted byte leaves bit 0 free for the new bit. -/
theorem shiftIn_toNat_eq_mod (b : Byte) (v : Bool) : (shiftIn b v).toNat = (2 * b.toNat + v.toNat) % 256 := by
  have hv := v.toNat_lt
  have hor : 2 ^ 1 * (b.toNat % 128) + v.toNat = 2 ^ 1 * (b.toNat % 128) ||| v.toNat :=
    Nat.two_pow_add_eq_or_of_lt (by omega) _
  rw [shiftIn_toNat, show b.toNat * 2 % 256 = 2 ^ 1 * (b.toNat % 128) by omega, ← hor]
  omega

theorem shiftInAll_toNat (b : Byte) (vs : List Bool) : (shiftInAll b vs).toNat = bitsValue b.toNat vs % 2 ^ 8 := by
  induction vs using List.reverseRecOn with
  | nil => exact (Nat.mod_eq_of_lt b.isLt).symm
  | append_singleton vs v ih =>
    rw [shiftInAll_append_one, shiftIn_toNat_eq_mod, ih, bitsValue_append_one]
    omega

/-- R112: up to eight new bits stand below what is left of the old byte. -/
theorem shiftInAll_toNat_eq_or (b : Byte) {vs : List Bool} (hlen : vs.length ≤ 8) :
    (shiftInAll b vs).toNat = (b.toNat * 2 ^ vs.length % 256) ||| bitsValue 0 vs := by
  have hlt : bitsValue 0 vs < 2 ^ 8 := (bitsValue_zero_lt vs).trans_le (Nat.pow_le_pow_right two_pos hlen)
  calc (shiftInAll b vs).toNat
      = (2 ^ vs.length * b.toNat + bitsValue 0 vs) % 2 ^ 8 := by rw [shiftInAll_toNat, bitsValue_eq]
    _ = (2 ^ vs.length * b.toNat ||| bitsValue 0 vs) % 2 ^ 8 := by
        rw [Nat.two_pow_add_eq_or_of_lt (bitsValue_zero_lt vs)]
    _ = (b.toNat * 2 ^ vs.length % 256) ||| bitsValue 0 vs := by
        rw [Nat.or_mod_two_pow, Nat.mod_eq_of_lt hlt, Nat.mul_comm]

theorem getLsbD_shiftIn_zero (b : Byte) (v : Bool) : (shiftIn b v).getLsbD 0 = v := by
  cases v <;> simp [shiftIn, zext8]

theorem getLsbD_shiftIn_succ (b : Byte) (v : Bool) {i : Nat} (hi : i + 1 < 8) :
    (shiftIn b v).getLsbD (i + 1) = b.getLsbD i := by
  rw [BitVec.getLsbD_eq_getElem (show i < 8 by omega)]
  cases v <;> simp [shiftIn, zext8, hi]

/-- R113: nothing of the old byte is left after eight bits. -/
theorem shiftInAll_bitsOfByte (x b : Byte) : shiftInAll x (bitsOfByte b) = b := by
  refine BitVec.eq_of_getLsbD_eq fun i hi => ?_
  simp only [shiftInAll, bitsOfByte, List.foldl_cons, List.foldl_nil]
  interval_cases i <;>
    simp only [getLsbD_shiftIn_zero, getLsbD_shiftIn_succ, Nat.reduceAdd, Nat.reduceLT]

section
variable {s : State} (hroom : s.nbyte < s.cfg.frameBytes) (hstart : s.nbit = 0) {vs : List Bool}
  (hlen : vs.length ≤ 8)
include hroom hstart hlen

/-- From the start of a byte with room for it, up to eight pushes all write. -/
theorem State.pushBits_bitIndex_of_byte : (s.pushBits vs).bitIndex = 8 * s.nbyte + vs.length := by
  have hindex : s.bitIndex = 8 * s.nbyte := by rw [State.bitIndex, hstart]; rfl
  rw [State.pushBits_bitIndex vs (by omega), hindex]
  omega

/-- Up to eight pushes from the start of a byte shift their bits into that byte and leave every other. -/
theorem State.pushBits_frameByte_of_byte (hw : s.frame.wellFormed s.cfg = true) (a : Nat) :
    (s.pushBits vs).frameByte a =
      if s.nbyte = a then shiftInAll (s.frameByte s.nbyte) vs else s.frameByte a := by
  induction vs using List.reverseRecOn generalizing a with
  | nil => simp +contextual [shiftInAll]
  | append_singleton vs v ih =>
    rw [List.length_append, List.length_singleton] at hlen
    have hvs : vs.length ≤ 8 := by omega
    have hindex := State.pushBits_bitIndex_of_byte hroom hstart hvs
    have hnbyte : (s.pushBits vs).nbyte = s.nbyte := by rw [State.nbyte_eq_bitIndex_div, hindex]; omega
    have hfull : (s.pushBits vs).full = false := by
      rwa [State.full_eq_false_iff, hnbyte, State.pushBits_cfg]
    have hwvs : (s.pushBits vs).frame.wellFormed (s.pushBits vs).cfg = true := by
      rw [State.pushBits_cfg]
      exact State.pushBits_frame_wellFormed vs hw
    rw [State.pushBits_append, State.pushBits_cons, State.pushBits_nil, State.pushBit_frameByte hwvs hfull, hnbyte,
      ih hvs, ih hvs, if_pos rfl, shiftInAll_append_one]
    split <;> rfl

end

/-- Settles O21: the cursor is the counter of written bits, the byte that of `shiftInAll_toNat_eq_or`. -/
theorem partialByteKeepsShiftedOldBits : Obligations.PartialByteKeepsShiftedOldBits := by
  intro s P vs hP hw hroom hstart _ hlen
  have hlen8 : vs.length ≤ 8 := by omega
  have hindex := State.pushBits_bitIndex_of_byte hroom hstart hlen8
  have hbyte := State.pushBits_frameByte_of_byte hroom hstart hlen8 hw
  refine ⟨s.pushBits vs, execAll_pushBit_map hP vs, ?_, fun a ha => ?_, ?_, ?_⟩
  · rw [hbyte, if_pos rfl]
    exact shiftInAll_toNat_eq_or _ hlen8
  · rw [hbyte, if_neg (Ne.symm ha)]
  · rw [State.nbyte_eq_bitIndex_div, hindex]
    omega
  · rw [State.nbit_eq_bitIndex_mod, hindex]
    omega

/-- Settles O22: the byte by `shiftInAll_bitsOfByte`, and a counter that has gone eight bits on. -/
theorem eightBitsReplaceAByte : Obligations.EightBitsReplaceAByte := by
  intro s P b hP hw hroom hstart
  have hlen : (bitsOfByte b).length ≤ 8 := le_rfl
  have hindex : (s.pushBits (bitsOfByte b)).bitIndex = 8 * s.nbyte + 8 :=
    State.pushBits_bitIndex_of_byte hroom hstart hlen
  have hbyte := State.pushBits_frameByte_of_byte hroom hstart hlen hw
  refine ⟨s.pushBits (bitsOfByte b), execAll_pushBit_map hP _, ?_, fun a ha => ?_, ?_, ?_⟩
  · rw [hbyte, if_pos rfl, shiftInAll_bitsOfByte]
  · rw [hbyte, if_neg (Ne.symm ha)]
  · rw [State.nbyte_eq_bitIndex_div, hindex]
    omega
  · refine BitVec.eq_of_toNat_eq ?_
    rw [State.nbit_eq_bitIndex_mod, hindex]
    exact Nat.mul_add_mod 8 s.nbyte 8

end Sys2Proof.Machine
end

section
/-! PROOFS. Frame Publication (44_frame_publication.md): what one READ leaves and returns, and what a second one does. -/

namespace Sys2Proof.Machine

/-! ## READ (R120, R122) -/

/-- R120: the snapshot is every byte of `pub` in ascending address order (R61), with the flag from before the step. -/
theorem State.readAndClear_eq (s : State) :
    s.readAndClear =
      { s with
        dirty := false
        ret := .snapshot ((List.range s.cfg.frameBytes).map s.pubByte) s.dirty } := rfl

/-- R122: a READ right after a READ finds the same buffer and a clear flag. -/
theorem State.readAndClear_readAndClear (s : State) :
    s.readAndClear.readAndClear =
      { s with
        dirty := false
        ret := .snapshot ((List.range s.cfg.frameBytes).map s.pubByte) false } := rfl

theorem execAll_read_read {s : State} {P : CalibrationProfile} (hP : s.profile = some P) :
    execAll [.read, .read] s = .next s.readAndClear.readAndClear := by
  have hP' : s.readAndClear.profile = some P := hP
  rw [execAll_cons_next (exec_read hP), execAll_one, exec_read hP']

/-- Settles O36: both words decode to READ whatever the tick, and READ keeps `pub`, so the second one differs from the
first in the flag it returns only. -/
theorem readReturnsSnapshotAndClears : Obligations.ReadReturnsSnapshotAndClears := by
  refine ⟨fun _ _ => ⟨decodePort_of_decodeCmd rfl, decodePort_of_decodeCmd rfl⟩, fun s P hP => ⟨?_, ?_⟩⟩
  · rw [exec_read hP, State.readAndClear_eq]
  · rw [execAll_read_read hP, State.readAndClear_readAndClear]

end Sys2Proof.Machine
end

section
/-! PROOFS. Exceptions (60_exceptions.md): why an operation can be refused, and that malformed timing raises nothing. -/

namespace Sys2Proof.Machine

/-! ## Refusals (R82, R130) -/

/-- R130: without a profile there is no decoder for an operation other than CALIBRATE to be applied to. -/
theorem exec_of_profile_none {i : Instr} {s : State} (hP : s.profile = none) (hi : i ≠ .calibrate) :
    exec i s = .refused .noDecoder := by
  cases i with
  | calibrate => exact absurd rfl hi
  | _ => exact State.onDecoder_none hP _

/-- An operation of a decoder that no command word selects completes, whatever the decoder holds. -/
theorem exec_next_of_not_isCommand {i : Instr} {s : State} {P : CalibrationProfile} (hP : s.profile = some P)
    (hi : i ≠ .calibrate) (hword : i.isCommand = false) : ∃ t, exec i s = .next t := by
  cases i with
  | symNone => exact ⟨_, exec_symNone hP⟩
  | symFrameReset => exact ⟨_, exec_symFrameReset hP⟩
  | symBit0 => exact ⟨_, exec_symBit0 hP⟩
  | symBit1 => exact ⟨_, exec_symBit1 hP⟩
  | classify => exact ⟨_, exec_classify hP⟩
  | pushBit v => exact ⟨_, exec_pushBit hP v⟩
  | resetCursor => exact ⟨_, exec_resetCursor hP⟩
  | calibrate => exact absurd rfl hi
  | _ => cases hword

/-- Everything that an operation other than CALIBRATE can be refused for. -/
theorem exec_refused_cases {i : Instr} {s : State} {r : Refusal} (h : exec i s = .refused r) (hi : i ≠ .calibrate) :
    r = .noDecoder ∨ r = .tickDecreased := by
  cases hP : s.profile with
  | none =>
    rw [exec_of_profile_none hP hi] at h
    cases h
    exact .inl rfl
  | some P =>
    cases hword : i.isCommand with
    | false =>
      obtain ⟨t, ht⟩ := exec_next_of_not_isCommand hP hi hword
      rw [ht] at h
      cases h
    | true =>
      obtain ⟨-, t, ht, -⟩ | ⟨-, hrefused⟩ := exec_command_outcome hP hword
      · rw [ht] at h
        cases h
      · rw [hrefused] at h
        cases h
        exact .inr rfl

/-- Settles O9: `exec_refused_cases` leaves CALIBRATE as the only operation that raises the exception, and
`calibrate_eq_calibrationError_iff` says when it does. -/
theorem calibrationErrorLeavesNoMachine : Obligations.CalibrationErrorLeavesNoMachine := by
  refine ⟨fun i s f => ?_, fun i s hP hi => exec_of_profile_none hP hi⟩
  by_cases hi : i = .calibrate
  · subst hi
    rw [exec_calibrate_refused_iff, calibrate_eq_calibrationError_iff, eq_self, true_and]
  · refine ⟨fun h => ?_, fun h => absurd h.1 hi⟩
    obtain hr | hr := exec_refused_cases h hi <;> cases hr

/-! ## Malformed timing (R131, R132) -/

/-- R100, R132: a RISE that recognises no symbol is its timing step and nothing more. -/
theorem exec_rise_of_noSym {s : State} {P : CalibrationProfile} {t : Nat} (hP : s.profile = some P)
    (ht : s.lt.low ≤ t ∧ s.lt.high ≤ t) (hsym : classify (t - s.lt.low) s.ld.high P = .noSym) :
    exec (.rise t) s = .next (s.stamp .high t) := by
  rw [exec_rise_of_inOrder hP ht, hsym]
  rfl

/-- Settles O54: FALL and RISE complete by `exec_fall_of_inOrder` and `exec_rise_of_inOrder`, and there is no fault to
raise (R131). -/
theorem malformedTimingStaysSilent : Obligations.MalformedTimingStaysSilent := by
  refine ⟨fun s P t hP hlow hhigh => ?_, fun _ _ r => nomatch r⟩
  have ht := And.intro hlow hhigh
  exact ⟨⟨_, exec_fall_of_inOrder hP ht⟩, ⟨_, exec_rise_of_inOrder hP ht⟩, exec_rise_of_noSym hP ht⟩

end Sys2Proof.Machine
end

section
/-! PROOFS. RESET (70_reset_and_hazards.md): what it gives every register and byte, and that `rst` decides the cycle
alone. -/

namespace Sys2Proof.Machine

/-! ## The values RESET gives (R150) -/

/-- R150: an empty list of differences reads as `FRAME_INIT` everywhere. -/
theorem State.hardReset_frameByte (s : State) (a : Nat) : s.hardReset.frameByte a = s.cfg.initByte a := by
  rw [State.frameByte, State.hardReset_frame, Memory.read_nil, State.hardReset_cfg]

theorem State.hardReset_pubByte (s : State) (a : Nat) : s.hardReset.pubByte a = s.cfg.initByte a := by
  rw [s.hardReset_cursorAndPublication.published, State.hardReset_frameByte]

/-- R48, CMD `1---`, at the ports: neither the tick nor its width matters. -/
theorem decodePort_of_rst (w t : Nat) {c : BitVec 4} (hrst : c.getLsbD 3 = true) : decodePort w ⟨c, t⟩ = .reset :=
  decodePort_of_decodeCmd (decodeCmd_of_rst hrst _)

/-- Settles O33: RESET is `hardReset`, whose fields the model's laws give; `hardReset_frameByte` and
`hardReset_pubByte` read the two buffers. -/
theorem resetRestoresTheResetValues : Obligations.ResetRestoresTheResetValues := by
  refine ⟨fun w t c hrst => decodePort_of_rst w t hrst, fun s P hP => ⟨s.hardReset, exec_reset hP, ?_⟩⟩
  simp [State.hardReset_frameByte, State.hardReset_pubByte]

/-! ## The cycle with `rst = 1` (R151) -/

theorem step_of_rst {s : State} {P : CalibrationProfile} {c : BitVec 4} {tick : Nat} {rest : List PortSample}
    (hP : s.profile = some P) (hrst : c.getLsbD 3 = true) (hinputs : s.inputs = ⟨c, tick⟩ :: rest) :
    step s = exec .reset { s with inputs := rest } := by
  rw [step_cons hP hinputs, decodePort_of_rst _ _ hrst]

/-- Settles O34: the step is RESET by `step_of_rst`, and `hardReset` keeps the latest result and the coming inputs. -/
theorem rstOverridesEveryOtherPort : Obligations.RstOverridesEveryOtherPort := by
  intro s P c tick rest hP hrst hinputs
  have hstep := step_of_rst hP hrst hinputs
  have hreset := exec_reset (s := { s with inputs := rest }) hP
  exact ⟨hstep, _, hstep.trans hreset, rfl, rfl, rfl, rfl, rfl, rfl, rfl⟩

end Sys2Proof.Machine
end

section
/-! PROOFS. The byte image (log entry 12): encoding and decoding, down to the bytes. -/

namespace Sys2Proof

/-- The laws of every operation's command word, one by one. -/
theorem commandWord (i : Instr) : Laws.CommandWord.Statement i := by
  cases i with
  | reset => exact Laws.CommandWord.reset
  | idle => exact Laws.CommandWord.idle
  | fall t => exact Laws.CommandWord.fall t
  | rise t => exact Laws.CommandWord.rise t
  | read => exact Laws.CommandWord.read
  | readFall t => exact Laws.CommandWord.readFall t
  | readRise t => exact Laws.CommandWord.readRise t
  | symNone => exact Laws.CommandWord.symNone
  | symFrameReset => exact Laws.CommandWord.symFrameReset
  | symBit0 => exact Laws.CommandWord.symBit0
  | symBit1 => exact Laws.CommandWord.symBit1
  | calibrate => exact Laws.CommandWord.calibrate
  | classify => exact Laws.CommandWord.classify
  | pushBit v => exact Laws.CommandWord.pushBit v
  | resetCursor => exact Laws.CommandWord.resetCursor

theorem decodeBytes_eq_ok_iff {w : Nat} {bs : List Byte} {i : Instr} :
    decodeBytes w bs = .ok i ↔ ∃ p, sampleOfBytes w bs = .ok p ∧ decodePort w p = i := by
  cases h : sampleOfBytes w bs <;> simp [decodeBytes, h]

theorem encodeBytes_of_encode {i : Instr} {p : PortSample} (h : encode i = some p) (w : Nat) :
    encodeBytes w i = some (bytesOfSample w p) := by
  simp [encodeBytes, h]

/-- R54, R60: an operation that is not a command has no bytes. -/
theorem encodeBytes_of_not_isCommand {i : Instr} (h : i.isCommand = false) (w : Nat) : encodeBytes w i = none := by
  have hnone : encode i = none := by
    rw [← Option.not_isSome_iff_eq_none, (commandWord i).1, h]
    exact Bool.false_ne_true
  simp [encodeBytes, hnone]

/-- A command whose tick fits its port is what its canonical bytes decode to. -/
theorem decodeBytes_encodeBytes {w : Nat} {i : Instr} (hcommand : i.isCommand = true) (hwf : i.wellFormed w = true) :
    ∃ bs, encodeBytes w i = some bs ∧ decodeBytes w bs = .ok i := by
  obtain ⟨hsome, hdecode⟩ := commandWord i
  obtain ⟨p, hp⟩ := Option.isSome_iff_exists.1 (hsome.trans hcommand)
  obtain ⟨hfits, hport⟩ := hdecode w p hwf hp
  exact ⟨bytesOfSample w p, encodeBytes_of_encode hp w,
    decodeBytes_eq_ok_iff.2 ⟨p, sampleOfBytes_bytesOfSample hfits, hport⟩⟩

/-- Settles O2: the sample of a command survives the bytes, and decodes to the command by `commandWord`. -/
theorem bytesOfACommandDecodeToIt : Obligations.BytesOfACommandDecodeToIt :=
  fun w _ => ⟨decodeBytes_encodeBytes, fun hno => encodeBytes_of_not_isCommand hno w⟩

/-- Settles O3: bytes decode through a port sample, and whatever stands at the ports is a well-formed command. -/
theorem decodedBytesAreAWellFormedCommand : Obligations.DecodedBytesAreAWellFormedCommand := by
  intro w bs i h
  obtain ⟨p, -, rfl⟩ := decodeBytes_eq_ok_iff.1 h
  obtain ⟨hcommand, hwf⟩ := decodePort_wellFormed w p
  exact ⟨hcommand, hwf, decodeBytes_encodeBytes hcommand hwf⟩

end Sys2Proof
end

section
/-! PROOFS. The invariant `Inv`: every operation the hardware can be given keeps it, and so does every step. -/

namespace Sys2Proof

/-- Both registers hold values of `w` bits (R10, R11). -/
def PerLevel.Fits (w : Nat) (r : PerLevel) : Prop := r.low < 2 ^ w ∧ r.high < 2 ^ w

theorem PerLevel.Fits.set {w t : Nat} {r : PerLevel} (h : r.Fits w) (ht : t < 2 ^ w) (l : Level) :
    (r.set l t).Fits w := by
  cases l with
  | low => exact ⟨ht, h.2⟩
  | high => exact ⟨h.1, ht⟩

namespace Machine

/-! ## The buffers -/

/-- Everything an operation can do to the two buffers: leave them, write a bit, or restore `FRAME_INIT`. -/
theorem exec_buffers_cases {i : Instr} {s t : State} (h : exec i s = .next t) :
    (t.frame = s.frame ∧ t.pub = s.pub) ∨
    (∃ v, s.full = false ∧ t.frame = (s.pushBit v).frame ∧ t.pub = (s.pushBit v).pub) ∨
    (t.frame = [] ∧ t.pub = []) := by
  by_cases hi : i = .reset
  · subst hi
    rw [exec_reset_next h]
    exact .inr (.inr ⟨rfl, rfl⟩)
  · cases hwrite : s.writesBit i
    · exact .inl (exec_buffers_of_not_writesBit h hi hwrite)
    · obtain ⟨v, hroom, -, hframe, hpub, -⟩ := (exec_bufferStep h).written hwrite
      exact .inr (.inl ⟨v, hroom, hframe, hpub⟩)

theorem exec_frame_wellFormed {i : Instr} {s t : State} (h : exec i s = .next t)
    (hw : s.frame.wellFormed s.cfg = true) : t.frame.wellFormed t.cfg = true := by
  rw [exec_cfg h]
  obtain ⟨hframe, -⟩ | ⟨v, -, hframe, -⟩ | ⟨hframe, -⟩ := exec_buffers_cases h <;> rw [hframe]
  · exact hw
  · exact State.pushBit_frame_wellFormed v hw
  · exact Memory.wellFormed_nil _

/-- R19, of the model's lists. -/
theorem exec_pub_eq_frame {i : Instr} {s t : State} (h : exec i s = .next t) (hp : s.pub = s.frame) :
    t.pub = t.frame := by
  obtain ⟨hframe, hpub⟩ | ⟨v, hroom, hframe, hpub⟩ | ⟨hframe, hpub⟩ := exec_buffers_cases h <;> rw [hframe, hpub]
  · exact hp
  · exact State.pushBit_pub_of_room v hroom

/-! ## The tick registers -/

/-- Everything an operation can do to the tick registers: leave them, clear them, or stamp a transition whose tick is
its operand. -/
theorem exec_ticks_cases {i : Instr} {s t : State} (h : exec i s = .next t) :
    (t.lt = s.lt ∧ t.ld = s.ld) ∨ (t.lt = ⟨0, 0⟩ ∧ t.ld = ⟨0, 0⟩) ∨
    (∃ v k, (∀ w, i.wellFormed w = tickFits w k) ∧ t.lt = s.lt.set v k ∧
      t.ld = s.ld.set v.other (s.finishedPulse v k)) := by
  obtain ⟨rfl, P, -, rfl⟩ | ⟨P, -, h'⟩ := exec_next_cases h
  · exact .inl ⟨rfl, rfl⟩
  · rcases h' with ⟨-, rfl⟩ | ⟨-, rfl⟩ | ⟨-, rfl⟩ | ⟨-, rfl⟩ | ⟨-, rfl⟩ | ⟨v, -, rfl⟩ | ⟨sym, -, rfl⟩ |
      ⟨k, rfl, -, -, rfl⟩ | ⟨k, rfl, -, -, rfl⟩ | ⟨k, rfl, -, -, rfl⟩ | ⟨k, rfl, -, -, rfl⟩
    · exact .inr (.inl ⟨rfl, rfl⟩)
    · exact .inl ⟨rfl, rfl⟩
    · exact .inl ⟨rfl, rfl⟩
    · exact .inl ⟨rfl, rfl⟩
    · exact .inl ⟨rfl, rfl⟩
    · exact .inl ⟨s.pushBit_lt v, s.pushBit_ld v⟩
    · exact .inl ⟨s.dispatch_lt sym, s.dispatch_ld sym⟩
    · exact .inr (.inr ⟨.low, k, fun _ => rfl, rfl, rfl⟩)
    · exact .inr (.inr ⟨.high, k, fun _ => rfl, State.gate_lt _ P .high, State.gate_ld _ P .high⟩)
    · exact .inr (.inr ⟨.low, k, fun _ => rfl, rfl, rfl⟩)
    · exact .inr (.inr ⟨.high, k, fun _ => rfl, State.gate_lt _ P .high, State.gate_ld _ P .high⟩)

/-- R10, R11: a tick that fits its port leaves ticks and durations that fit, since a duration is at most its tick. -/
theorem exec_ticks_fit {i : Instr} {s t : State} {w : Nat} (h : exec i s = .next t) (hwf : i.wellFormed w = true)
    (hlt : s.lt.Fits w) (hld : s.ld.Fits w) : t.lt.Fits w ∧ t.ld.Fits w := by
  obtain ⟨htlt, htld⟩ | ⟨htlt, htld⟩ | ⟨v, k, hk, htlt, htld⟩ := exec_ticks_cases h <;> rw [htlt, htld]
  · exact ⟨hlt, hld⟩
  · have hzero : PerLevel.Fits w ⟨0, 0⟩ := ⟨Nat.two_pow_pos w, Nat.two_pow_pos w⟩
    exact ⟨hzero, hzero⟩
  · have hfits : k < 2 ^ w := of_decide_eq_true ((hk w).symm.trans hwf)
    have hpulse : s.finishedPulse v k ≤ k := Nat.sub_le _ _
    exact ⟨hlt.set hfits v, hld.set (hpulse.trans_lt hfits) v.other⟩

/-! ## The invariant -/

/-- R20: whichever operation gave the profile, it is the one that CALIBRATE computes. -/
theorem exec_calibrated {i : Instr} {s t : State} (h : exec i s = .next t)
    (hs : ∀ P, s.profile = some P → calibrate s.cfg = .ok P) :
    ∀ P, t.profile = some P → calibrate t.cfg = .ok P := by
  by_cases hi : i = .calibrate
  · subst hi
    obtain ⟨P, hP, rfl⟩ := exec_calibrate_next_iff.1 h
    rintro _ ⟨⟩
    exact hP
  · obtain ⟨hcfg, hprofile⟩ := exec_configuration h
    rw [hcfg, hprofile hi]
    exact hs

theorem Inv.cursorAndPublication {s : State} (h : Inv s) : CursorAndPublication s :=
  ⟨h.cursorInRange, h.fullAtByteStart, fun a => by rw [State.pubByte, State.frameByte, h.published]⟩

/-- Every operation with an operand that its port can carry keeps the invariant. -/
theorem Inv.exec {i : Instr} {s t : State} (hs : Inv s) (hwf : i.wellFormed s.cfg.tickW = true)
    (h : exec i s = .next t) : Inv t := by
  have hcursor := hs.cursorAndPublication.exec h
  have hticks := exec_ticks_fit h hwf hs.ltFits hs.ldFits
  rw [← exec_cfg h] at hticks
  exact ⟨exec_calibrated h hs.calibrated, hcursor.inRange, hcursor.fullAtByteStart,
    exec_frame_wellFormed h hs.frameWellFormed, exec_pub_eq_frame h hs.published, hticks.1, hticks.2⟩

/-- The invariant does not speak of the coming inputs. -/
theorem Inv.sampled {s : State} (hs : Inv s) : Inv s.sampled := { hs with }

/-- Settles O51: a step is an operation with an operand from its port, or CALIBRATE, so `Inv.exec` applies. -/
theorem everyStepKeepsTheInvariant : Obligations.EveryStepKeepsTheInvariant := by
  intro s t hs h
  cases hP : s.profile with
  | none =>
    rw [step_of_none hP] at h
    exact hs.exec rfl h
  | some P =>
    rw [step_of_some hP] at h
    exact hs.sampled.exec s.presented_wellFormed.2 h

/-- Settles O52: the three properties are `CursorAndPublication`. -/
theorem everyOperationKeepsCursorAndPublication : Obligations.EveryOperationKeepsCursorAndPublication := by
  intro i s t h hrange hstart hpub
  obtain ⟨hrange', hstart', hpub'⟩ := CursorAndPublication.exec ⟨hrange, hstart, hpub⟩ h
  exact ⟨hrange', hstart', hpub'⟩

/-- The state that RESET leaves on a calibrated decoder, whatever it held before (R151). -/
theorem State.hardReset_inv {s : State} (hs : ∀ P, s.profile = some P → calibrate s.cfg = .ok P) :
    Inv s.hardReset :=
  have hzero : PerLevel.Fits s.cfg.tickW ⟨0, 0⟩ := ⟨Nat.two_pow_pos _, Nat.two_pow_pos _⟩
  ⟨hs, Nat.zero_le _, fun _ => rfl, rfl, rfl, hzero, hzero⟩

/-- Settles O50: the reset state is what RESET makes of it, and its profile is the calibrated one. -/
theorem resetStateIsGood : Obligations.ResetStateIsGood := by
  refine State.hardReset_inv (s := State.reset) fun P hP => ?_
  cases hP
  exact calibrate_ok_iff.2 ⟨16000000, by decide, rfl, by decide, by decide, rfl⟩

end Machine

end Sys2Proof
end

section
/-! PROOFS. The byte list (log entry 13): the bytes that a canonical list reads as determine it. -/

namespace Sys2Proof.Machine

/-- A canonical list has no entry at or past `N`. -/
theorem Memory.lookup_past {c : Config} {m : Memory} {lo a : Nat} (h : m.wellFormedFrom c lo = true)
    (ha : c.frameBytes ≤ a) : m.lookup a = none := by
  induction m generalizing lo with
  | nil => rfl
  | cons e rest ih =>
    obtain ⟨x, b⟩ := e
    simp only [Memory.wellFormedFrom, Bool.and_eq_true, decide_eq_true_eq] at h
    obtain ⟨⟨⟨-, hx⟩, -⟩, hrest⟩ := h
    rw [Memory.lookup, if_neg (by omega), ih hrest]

/-- What a canonical list has at an address is what it reads as there, where that is not `FRAME_INIT`. -/
theorem Memory.lookup_eq_of_read {c : Config} {m : Memory} (h : m.wellFormed c = true) (a : Nat) :
    m.lookup a = if m.read c a = c.initByte a then none else some (m.read c a) := by
  cases hb : m.lookup a with
  | none => simp [Memory.read, hb]
  | some b => simp [Memory.read, hb, Memory.lookup_ne_init h hb]

/-- The first entry of a canonical list is at its lowest address. -/
theorem Memory.le_of_lookup_cons {c : Config} {x a : Nat} {b v : Byte} {rest : Memory} {lo : Nat}
    (h : Memory.wellFormedFrom c lo ((x, b) :: rest) = true) (ha : Memory.lookup ((x, b) :: rest) a = some v) :
    x ≤ a := by
  simp only [Memory.wellFormedFrom, Bool.and_eq_true, decide_eq_true_eq] at h
  by_contra hlt
  rw [Memory.lookup, if_neg (by omega), Memory.lookup_below h.2 (by omega)] at ha
  cases ha

/-- Two canonical lists with the same entries are equal. -/
theorem Memory.ext_lookup {c : Config} {m m' : Memory} {lo lo' : Nat} (h : m.wellFormedFrom c lo = true)
    (h' : m'.wellFormedFrom c lo' = true) (heq : ∀ a, m.lookup a = m'.lookup a) : m = m' := by
  induction m generalizing m' lo lo' with
  | nil =>
    cases m' with
    | nil => rfl
    | cons e' rest' => simpa [Memory.lookup] using heq e'.1
  | cons e rest ih =>
    obtain ⟨x, b⟩ := e
    have hhead : Memory.lookup ((x, b) :: rest) x = some b := if_pos rfl
    cases m' with
    | nil => simpa [Memory.lookup] using heq x
    | cons e' rest' =>
      obtain ⟨x', b'⟩ := e'
      have hhead' : Memory.lookup ((x', b') :: rest') x' = some b' := if_pos rfl
      obtain rfl : x = x' := le_antisymm (Memory.le_of_lookup_cons h ((heq x').trans hhead'))
        (Memory.le_of_lookup_cons h' ((heq x).symm.trans hhead))
      obtain rfl : b = b' := by rw [heq, hhead'] at hhead; cases hhead; rfl
      simp only [Memory.wellFormedFrom, Bool.and_eq_true] at h h'
      refine congrArg _ (ih h.2 h'.2 fun a => ?_)
      by_cases hax : x = a
      · rw [Memory.lookup_below h.2 (by omega), Memory.lookup_below h'.2 (by omega)]
      · have ha := heq a
        rwa [Memory.lookup, Memory.lookup, if_neg hax, if_neg hax] at ha

/-- Two canonical lists that read alike on the buffer are equal. -/
theorem Memory.ext_read {c : Config} {m m' : Memory} (h : m.wellFormed c = true) (h' : m'.wellFormed c = true)
    (heq : ∀ a, a < c.frameBytes → m.read c a = m'.read c a) : m = m' := by
  refine Memory.ext_lookup h h' fun a => ?_
  rcases Nat.lt_or_ge a c.frameBytes with ha | ha
  · rw [Memory.lookup_eq_of_read h, Memory.lookup_eq_of_read h', heq a ha]
  · rw [Memory.lookup_past h ha, Memory.lookup_past h' ha]

/-- Settles O49: the write by the model's laws of a memory, the rest by `Memory.ext_read`. -/
theorem equalBuffersAreEqualLists : Obligations.EqualBuffersAreEqualLists := by
  refine fun c m h => ⟨fun a b ha => ⟨Memory.write_wellFormed h ha, fun x => ?_⟩,
    fun m' h' heq => Memory.ext_read h' h heq⟩
  rw [Memory.read_write h]
  exact if_congr eq_comm rfl rfl

end Sys2Proof.Machine
end

section
/-! PROOFS. What no operation looks at: the returned value and the coming inputs (log entries 1 and 5). -/

namespace Sys2Proof.Machine

/-! ## The returned value (log entry 5) -/

theorem State.writesBit_withRet (s : State) (r : Ret) (i : Instr) :
    State.writesBit { s with ret := r } i = s.writesBit i := rfl

/-- Settles O43: `AgreeButFlagAndRet.exec`, where by `exec_dirty` the flag is the same too. -/
theorem returnValueIsNeverRead : Obligations.ReturnValueIsNeverRead := by
  intro i s t r h
  obtain ⟨t', h', hagree⟩ := AgreeButFlagAndRet.exec (s' := { s with ret := r }) rfl h
  have hdirty : t'.dirty = t.dirty := by rw [exec_dirty h', exec_dirty h, State.writesBit_withRet]
  refine ⟨t', h', ?_⟩
  rwa [AgreeButFlagAndRet, hdirty] at hagree

/-! ## The coming inputs (log entry 1) -/

/-- `s` with other coming inputs. -/
def State.withInputs (s : State) (ins : List PortSample) : State := { s with inputs := ins }

theorem State.pushBit_withInputs (s : State) (ins : List PortSample) (v : Bool) :
    (s.withInputs ins).pushBit v = (s.pushBit v).withInputs ins := by
  cases hf : s.full
  · rw [State.pushBit_of_not_full v hf, State.pushBit_of_not_full v (s := s.withInputs ins) hf]; rfl
  · rw [State.pushBit_of_full v hf, State.pushBit_of_full v (s := s.withInputs ins) hf]

theorem State.dispatch_withInputs (s : State) (ins : List PortSample) (sym : Symbol) :
    (s.withInputs ins).dispatch sym = (s.dispatch sym).withInputs ins := by
  cases sym with
  | noSym => rfl
  | frameReset => rfl
  | bit0 => exact s.pushBit_withInputs ins false
  | bit1 => exact s.pushBit_withInputs ins true

theorem State.gate_withInputs (s : State) (ins : List PortSample) (P : CalibrationProfile) (v : Level) :
    (s.withInputs ins).gate P v = (s.gate P v).withInputs ins := by
  cases v with
  | low => rfl
  | high => exact s.dispatch_withInputs ins _

theorem State.onTransition_withInputs {s : State} {k : Nat} (ins : List PortSample) (P : CalibrationProfile)
    (v : Level) (hk : s.lt.low ≤ k ∧ s.lt.high ≤ k) :
    (s.withInputs ins).onTransition P v k = .next (((s.stamp v k).gate P v).withInputs ins) := by
  rw [State.onTransition_of_inOrder (s := s.withInputs ins) P v hk, ← State.gate_withInputs]
  rfl

theorem exec_inputs {i : Instr} {s t : State} (h : exec i s = .next t) : t.inputs = s.inputs := by
  obtain ⟨rfl, P, -, rfl⟩ | ⟨P, -, h'⟩ := exec_next_cases h
  · rfl
  · rcases h' with ⟨-, rfl⟩ | ⟨-, rfl⟩ | ⟨-, rfl⟩ | ⟨-, rfl⟩ | ⟨-, rfl⟩ | ⟨v, -, rfl⟩ | ⟨sym, -, rfl⟩ |
      ⟨k, -, -, -, rfl⟩ | ⟨k, -, -, -, rfl⟩ | ⟨k, -, -, -, rfl⟩ | ⟨k, -, -, -, rfl⟩ <;> simp

theorem exec_withInputs {i : Instr} {s t : State} (ins : List PortSample) (h : exec i s = .next t) :
    exec i (s.withInputs ins) = .next (t.withInputs ins) := by
  obtain ⟨rfl, P, hP, rfl⟩ | ⟨P, hP, h'⟩ := exec_next_cases h
  · exact exec_calibrate_ok (s := s.withInputs ins) hP
  · have hP' : (s.withInputs ins).profile = some P := hP
    rcases h' with ⟨rfl, rfl⟩ | ⟨rfl, rfl⟩ | ⟨rfl, rfl⟩ | ⟨rfl, rfl⟩ | ⟨rfl, rfl⟩ | ⟨v, rfl, rfl⟩ | ⟨sym, rfl, rfl⟩ |
      ⟨k, rfl, hlow, hhigh, rfl⟩ | ⟨k, rfl, hlow, hhigh, rfl⟩ | ⟨k, rfl, hlow, hhigh, rfl⟩ | ⟨k, rfl, hlow, hhigh, rfl⟩
    · exact exec_reset hP'
    · exact exec_read hP'
    · exact exec_classify hP'
    · exact exec_resetCursor hP'
    · exact exec_idle hP'
    · rw [exec_pushBit hP', State.pushBit_withInputs]
    · rw [exec_instr hP', State.dispatch_withInputs]
    · rw [exec_fall hP', State.onTransition_withInputs ins P .low ⟨hlow, hhigh⟩]; rfl
    · rw [exec_rise hP', State.onTransition_withInputs ins P .high ⟨hlow, hhigh⟩]
    · rw [exec_readFall hP']
      exact State.onTransition_withInputs (s := s.readAndClear) ins P .low ⟨hlow, hhigh⟩
    · rw [exec_readRise hP']
      exact State.onTransition_withInputs (s := s.readAndClear) ins P .high ⟨hlow, hhigh⟩

/-- Settles O44: the list is kept by `exec_inputs`, and replacing it commutes with every operation. -/
theorem operationsIgnoreComingInputs : Obligations.OperationsIgnoreComingInputs :=
  fun _ _ _ ins h => ⟨exec_inputs h, exec_withInputs ins h⟩

end Sys2Proof.Machine
end

section
/-! PROOFS. READ beside other operations (44_frame_publication.md): its order with FALL, and what a clear flag after it
says. -/

namespace Sys2Proof.Machine

/-! ## READ and FALL in either order (R123, D19) -/

/-- Settles O40: FALL writes no register that READ looks at, and READ no tick register. -/
theorem readAndFallCommute : Obligations.ReadAndFallCommute := by
  intro s t
  cases hP : s.profile with
  | none =>
    rw [execAll_cons_refused (exec_of_profile_none hP (by decide)),
      execAll_cons_refused (exec_of_profile_none hP (by simp))]
  | some P =>
    rw [← exec_readFall_eq_execAll, exec_readFall hP]
    obtain ⟨hlow, hhigh, hfall⟩ | ⟨hno, hfall⟩ := State.onTransition_cases (P := P) (v := .low) (t := t) (s := s)
    · have hPt : (s.stamp .low t).profile = some P := hP
      rw [State.onTransition_of_inOrder (s := s.readAndClear) P .low ⟨hlow, hhigh⟩,
        execAll_cons_next (exec_fall_of_inOrder hP ⟨hlow, hhigh⟩), execAll_one, exec_read hPt]
      rfl
    · rw [execAll_cons_refused ((exec_fall hP t).trans hfall)]
      obtain ⟨hlow, hhigh, -⟩ | ⟨-, hrefused⟩ :=
        State.onTransition_cases (P := P) (v := .low) (t := t) (s := s.readAndClear)
      · exact absurd ⟨hlow, hhigh⟩ hno
      · exact hrefused

/-! ## A clear flag (R162) -/

/-- With a clear flag neither buffer has changed since it was that of `s`. -/
def ChangedOnlyIfFlagged (s u : State) : Prop := u.dirty = false → u.frame = s.frame ∧ u.pub = s.pub

/-- An operation that does not clear the flag leaves it clear only if it was, and then writes no bit. -/
theorem ChangedOnlyIfFlagged.exec {i : Instr} {s u v : State} (hu : ChangedOnlyIfFlagged s u)
    (h : exec i u = .next v) (hi : clearsFlag i = false) : ChangedOnlyIfFlagged s v := by
  intro hclear
  rw [exec_dirty h, hi, Bool.or_eq_false_iff, Bool.not_false, Bool.and_true] at hclear
  obtain ⟨hwrite, hdirty⟩ := hclear
  obtain ⟨hframe, hpub⟩ := exec_buffers_of_not_writesBit h (by rintro rfl; cases hi) hwrite
  rw [hframe, hpub]
  exact hu hdirty

theorem clearsFlag_eq_false {i : Instr}
    (h : i ≠ .reset ∧ i ≠ .read ∧ (∀ k, i ≠ .readFall k) ∧ (∀ k, i ≠ .readRise k)) : clearsFlag i = false := by
  obtain ⟨hreset, hread, hreadFall, hreadRise⟩ := h
  cases i with
  | reset => exact absurd rfl hreset
  | read => exact absurd rfl hread
  | readFall k => exact absurd rfl (hreadFall k)
  | readRise k => exact absurd rfl (hreadRise k)
  | _ => rfl

/-- Settles O41: READ leaves both buffers, and no operation after it clears the flag. -/
theorem clearFlagMeansNothingNewSinceRead : Obligations.ClearFlagMeansNothingNewSinceRead := by
  intro s t is his h
  obtain ⟨u, hread, hrest⟩ := execAll_cons_inv h
  have hstart : ChangedOnlyIfFlagged s u := fun _ => exec_buffers_of_not_writesBit hread (by decide) rfl
  exact execAll_induct (fun i hi _ _ hu hx => hu.exec hx (clearsFlag_eq_false (his i hi))) hstart hrest

end Sys2Proof.Machine
end

section
/-! PROOFS. The machine step by step: what a step runs, the boot, a READ in the cycle of a transition, and runs under
the environment's tick order (70_reset_and_hazards.md). -/

namespace Sys2Proof.Machine

/-! ## What a step runs (R46) -/

/-- Settles O17: CLASSIFY's arm of `exec`. -/
theorem classifyReturnsTheSymbol : Obligations.ClassifyReturnsTheSymbol := fun _ _ hP => exec_classify hP

/-- Bytes presented at the next edge run the operation that they decode to. -/
theorem step_presentBytes {s : State} {P : CalibrationProfile} {bs : List Byte} {i : Instr} (hP : s.profile = some P)
    (hw : s.cfg.tickW = 64) (h : decodeBytes 64 bs = .ok i) : step (s.presentBytes bs) = exec i s := by
  obtain ⟨p, hp, rfl⟩ := decodeBytes_eq_ok_iff.1 h
  have hpresent : s.presentBytes bs = { s with inputs := p :: s.inputs } := by simp [State.presentBytes, hp]
  rw [hpresent, step_cons (s := { s with inputs := p :: s.inputs }) hP rfl, hw]

theorem decodeTableWord_eq_some_iff {nbits w : Nat} {i : Instr} :
    decodeTableWord nbits w = some i ↔ decodeBytes 64 (wordImage nbits w) = .ok i := by
  cases h : decodeBytes 64 (wordImage nbits w) <;> simp [decodeTableWord, h, Except.toOption]

/-- Settles O56: `step_cons`, and a table word is presented as its bytes. -/
theorem stepRunsThePresentedOperation : Obligations.StepRunsThePresentedOperation :=
  fun _ _ hP => ⟨fun _ _ hinputs => step_cons hP hinputs, fun _ _ hw h => step_presentBytes hP hw h,
    fun _ _ _ hw h => step_presentBytes hP hw (decodeTableWord_eq_some_iff.1 h)⟩

/-! ## Runs -/

theorem run_succ_of_next {s t : State} (h : step s = .next t) (k : Nat) :
    Sys2Proof.core.run (k + 1) s = Sys2Proof.core.run k t := by
  have h' : Sys2Proof.core.step s = .next t := h
  simp only [Host.Core.run, h']

theorem run_succ_of_refused {s : State} {r : Refusal} (h : step s = .refused r) (k : Nat) :
    Sys2Proof.core.run (k + 1) s = .refused r := by
  have h' : Sys2Proof.core.step s = .refused r := h
  simp only [Host.Core.run, h']

theorem run_one (s : State) : Sys2Proof.core.run 1 s = step s := by
  cases h : step s with
  | next t => exact run_succ_of_next h 0
  | fault r => exact nomatch r
  | refused r => exact run_succ_of_refused h 0

/-- A property that carries a next step with it holds along every run, which never stops. -/
theorem run_induct {motive : State → Prop} (hstep : ∀ u, motive u → ∃ v, step u = .next v ∧ motive v) (k : Nat)
    {s : State} (hs : motive s) : ∃ t, Sys2Proof.core.run k s = .next t ∧ motive t := by
  induction k generalizing s with
  | zero => exact ⟨s, rfl, hs⟩
  | succ k ih =>
    obtain ⟨u, hu, hmu⟩ := hstep s hs
    rw [run_succ_of_next hu]
    exact ih hmu

/-! ## Boot (R130, R153) -/

/-- Settles O57: the step without a profile is CALIBRATE, and RESET gives a good state whatever stood in the
registers. -/
theorem calibrateThenResetBootsTheDecoder : Obligations.CalibrateThenResetBootsTheDecoder := by
  refine ⟨fun s k hP hf => ?_, fun s f hP hf hpos hw hfits => ?_⟩
  · refine run_succ_of_refused ?_ k
    rw [step_of_none hP, exec_calibrate_refused_iff, calibrate_eq_calibrationError_iff]
    exact ⟨rfl, hf⟩
  · have hcal : calibrate s.cfg = .ok (profileFor s.cfg f) := calibrate_ok_iff.2 ⟨f, hpos, hf, hw, hfits, rfl⟩
    refine ⟨_, _, (step_of_none hP).trans (exec_calibrate_ok hcal), rfl, exec_reset rfl, ?_, rfl, rfl, rfl⟩
    refine State.hardReset_inv fun P hP' => ?_
    cases hP'
    exact hcal

/-! ## READ and a transition in one cycle (R49, R50) -/

/-- Two cycles of which the first is READ are the READ and then what the second sample presents. -/
theorem run_two_of_read {s : State} {P : CalibrationProfile} (hP : s.profile = some P) (tick : Nat) (p : PortSample)
    (rest : List PortSample) :
    Sys2Proof.core.run 2 { s with inputs := ⟨0b0100, tick⟩ :: p :: rest } =
      execAll [.read, decodePort s.cfg.tickW p] { s with inputs := rest } := by
  have hread : decodePort s.cfg.tickW ⟨0b0100, tick⟩ = .read := decodePort_of_decodeCmd rfl
  have hfirst : step { s with inputs := ⟨0b0100, tick⟩ :: p :: rest } =
      .next (s.withInputs (p :: rest)).readAndClear := by
    rw [step_cons (s := { s with inputs := ⟨0b0100, tick⟩ :: p :: rest }) hP rfl, hread]
    exact exec_read (s := s.withInputs (p :: rest)) hP
  have hnext : exec .read { s with inputs := rest } = .next (s.withInputs rest).readAndClear :=
    exec_read (s := s.withInputs rest) hP
  rw [run_succ_of_next hfirst, run_one, step_cons (s := (s.withInputs (p :: rest)).readAndClear) hP rfl,
    execAll_cons_next hnext, execAll_one]
  rfl

/-- Settles O58: both are the READ and then the transition, by the arms of `exec` and by `run_two_of_read`. -/
theorem sameCycleReadIsReadFirst : Obligations.SameCycleReadIsReadFirst := by
  intro s tick tick' rest hne
  obtain ⟨P, hP⟩ := Option.ne_none_iff_exists'.1 hne
  have hstep (p : PortSample) : step { s with inputs := p :: rest } =
      exec (decodePort s.cfg.tickW p) { s with inputs := rest } :=
    step_cons (s := { s with inputs := p :: rest }) hP rfl
  obtain ⟨-, htabled, -⟩ := commandWordsDecodeAsTabled
  obtain ⟨-, -, hfall, hrise, -, -, hreadFall, hreadRise⟩ := htabled s.cfg.tickW tick
  rw [run_two_of_read hP, run_two_of_read hP, hstep, hstep, hfall, hrise, hreadFall, hreadRise]
  exact ⟨exec_readFall_eq_execAll _ _, exec_readRise_eq_execAll _ _⟩

/-! ## Runs under the environment's tick order (R132, R154) -/

/-- A good state of a decoder whose coming inputs keep the order of ticks. -/
structure Conforming (s : State) : Prop where
  good : Inv s
  decoder : s.profile ≠ none
  inOrder : s.environmentOk = true

/-- A transition in order is not refused, and leaves the order to the samples after it. -/
theorem Conforming.step {s : State} (hs : Conforming s) : ∃ t, step s = .next t ∧ Conforming t := by
  obtain ⟨P, hP⟩ := Option.ne_none_iff_exists'.1 hs.decoder
  cases hinputs : s.inputs with
  | nil =>
    have hstep : Machine.step s = .next s.sampled := by
      rw [step_of_some hP, State.presented_nil hinputs]
      exact exec_idle (s := s.sampled) hP
    exact ⟨s.sampled, hstep, hs.good.sampled, hs.decoder, by simp [State.environmentOk, hinputs, ticksInOrder]⟩
  | cons p rest =>
    obtain ⟨hcommand, hwf⟩ := decodePort_wellFormed s.cfg.tickW p
    have horder := hs.inOrder
    rw [State.environmentOk, hinputs, ticksInOrder, Bool.and_eq_true] at horder
    obtain ⟨hallowed, hrest⟩ := horder
    have hsampled := State.sampled_cons hinputs
    obtain ⟨-, t, ht, hlast⟩ | ⟨hno, -⟩ := exec_command_outcome (s := s.sampled) hP hcommand
    · refine ⟨t, ?_, hs.good.sampled.exec hwf ht, ?_, ?_⟩
      · rwa [step_cons hP hinputs, ← hsampled]
      · rw [exec_command_profile ht hcommand]
        exact hs.decoder
      · rw [State.environmentOk, exec_cfg ht, hlast, exec_inputs ht, hsampled]
        exact hrest
    · exact absurd (hno.symm.trans hallowed) Bool.false_ne_true

/-- Settles O55: `Conforming` carries every next step, by `Conforming.step`. -/
theorem conformingRunNeverStops : Obligations.ConformingRunNeverStops := by
  intro s hinv hne horder
  have hrun (k : Nat) := run_induct (fun _ hu => Conforming.step hu) k ⟨hinv, hne, horder⟩
  refine ⟨fun k => ?_, fun k t ht => ?_⟩
  · obtain ⟨t, ht, -⟩ := hrun k
    exact ⟨t, ht⟩
  · obtain ⟨u, hu, hgood⟩ := hrun k
    rw [hu] at ht
    cases ht
    exact hgood.good

end Sys2Proof.Machine
end

section
/-! PROOFS. Pulse trains: a high pulse before a reset gap, and the eight pulse pairs of a byte (30_encoding.md R59). -/

namespace Sys2Proof

/-! ## Nominal pulses in their windows -/

/-- R65: where the tolerance is a tick or more, the nominal duration in ticks is in its window. -/
theorem inWindow_calibratedWindow_nominal {f tolNs nominal : Nat} (htol : tolNs ≤ nominal)
    (hf : 1000000000 ≤ tolNs * f) :
    inWindow (ticksFloor f nominal) (calibratedWindow f tolNs nominal) = true := by
  obtain ⟨low, rfl⟩ := Nat.exists_eq_add_of_le' htol
  refine (Machine.inWindow_iff _ _).2 ⟨?_, Nat.div_le_div_right (Nat.mul_le_mul_right f (Nat.le_add_right _ _))⟩
  calc ticksFloor f (low + tolNs - tolNs) + 1
      = (low * f + 1000000000) / 1000000000 := by
        rw [Nat.add_sub_cancel, ticksFloor_eq_div, Nat.add_div_right _ (by decide)]
    _ ≤ ticksFloor f (low + tolNs) := Nat.div_le_div_right (by linarith)

namespace Machine

section
variable {rows cols f : Nat} {c : Config} (hc : c = Config.withDefaults rows cols (some f))
include hc

/-- R72: with the default constants a low that reaches the threshold is past the low windows of both bits. -/
theorem classify_of_resetThreshold_le (hf : 1 ≤ f) {l : Nat} (hl : (profileFor c f).resetThreshold ≤ l) (h : Nat) :
    classify l h (profileFor c f) = .frameReset := by
  subst hc
  obtain ⟨-, hzero, hone⟩ := profileFor_withDefaults_separated rows cols (some f) f hf
  obtain ⟨-, -, hreset, -⟩ := classify_eq_iff l h (profileFor (Config.withDefaults rows cols (some f)) f)
  refine hreset.2 ⟨fun hz => ?_, fun ho => ?_, hl⟩
  · exact (lt_of_inWindow hz.1 hzero).not_ge hl
  · exact (lt_of_inWindow ho.1 hone).not_ge hl

/-- The nominal pulses of a bit are classified as that bit, from the frequency on at which 150 ns are a tick. -/
theorem classify_nominal (hf : 6666667 ≤ f) (v : Bool) :
    classify (nominalLow c f v) (nominalHigh c f v) (profileFor c f) = if v then .bit1 else .bit0 := by
  subst hc
  have hnominal {nominal : Nat} (htol : 150 ≤ nominal) :
      inWindow (ticksFloor f nominal) (calibratedWindow f 150 nominal) = true :=
    inWindow_calibratedWindow_nominal htol (by omega)
  obtain ⟨hlows, -, -⟩ := profileFor_withDefaults_separated rows cols (some f) f (by omega)
  cases v with
  | false =>
    exact classify_of_accepts_zero ⟨hnominal (nominal := 850) (by decide), hnominal (nominal := 400) (by decide)⟩
  | true =>
    have hlow := hnominal (nominal := 450) (by decide)
    refine classify_of_accepts_one (fun hz => ?_) ⟨hlow, hnominal (nominal := 800) (by decide)⟩
    exact (lt_of_inWindow hlow hlows).not_ge ((inWindow_iff _ _).1 hz.1).1

end

/-! ## The pulse before a gap (R156) -/

/-- Settles O32: the FALL and the RISE come to the operation of the pair's symbol (R87), which is FRAME_RESET. -/
theorem highPulseBeforeAGapIsLost : Obligations.HighPulseBeforeAGapIsLost := by
  rintro s P rows cols f t1 t2 hP hf hcfg rfl hlow hhigh hgap
  rw [riseUsesTheHighPulseBeforeTheLow s _ t1 t2 hP hlow hhigh (by omega),
    classify_of_resetThreshold_le hcfg hf (by omega)]
  exact exec_symFrameReset (s := s.withTicks ⟨t1, t2⟩ ⟨t2 - t1, t1 - s.lt.high⟩) hP

/-! ## The pulse pairs of a sequence of bits (R59) -/

theorem State.pushBits_withTicks (s : State) (lt ld : PerLevel) (vs : List Bool) :
    (s.withTicks lt ld).pushBits vs = (s.pushBits vs).withTicks lt ld := by
  induction vs generalizing s with
  | nil => rfl
  | cons v vs ih => rw [State.pushBits_cons, State.pushBit_withTicks, ih, State.pushBits_cons]

/-- A pulse pair that is classified as bit `v`, after a RISE, pushes `v` and ends with its own RISE. -/
theorem execAll_pulsePair {s : State} {P : CalibrationProfile} (hP : s.profile = some P)
    (hrisen : s.lt.low ≤ s.lt.high) {h l : Nat} {v : Bool} (hbit : classify l h P = if v then .bit1 else .bit0) :
    ∃ lt ld, execAll (pulsePair h l s.lt.high) s = .next ((s.pushBit v).withTicks lt ld) ∧
      lt.low ≤ lt.high ∧ lt.high = s.lt.high + h + l := by
  refine ⟨⟨s.lt.high + h, s.lt.high + h + l⟩, ⟨l, h⟩, ?_, Nat.le_add_right _ _, rfl⟩
  have hP' : (s.withTicks ⟨s.lt.high + h, s.lt.high + h + l⟩ ⟨l, h⟩).profile = some P := hP
  rw [pulsePair, riseUsesTheHighPulseBeforeTheLow s P _ _ hP (by omega) (by omega) (by omega), Nat.add_sub_cancel_left,
    Nat.add_sub_cancel_left, hbit, ← State.pushBit_withTicks, ← State.dispatch_bit]
  exact exec_instr hP' _

/-- The pulse pairs of `vs`, after a RISE, push `vs`: whatever else they leave is in the tick registers. -/
theorem execAll_sendBits {rows cols f : Nat} (hf : 6666667 ≤ f) (vs : List Bool) {s : State}
    (hcfg : s.cfg = Config.withDefaults rows cols (some f)) (hP : s.profile = some (profileFor s.cfg f))
    (hrisen : s.lt.low ≤ s.lt.high) :
    ∃ lt ld, execAll (sendBits s.cfg f s.lt.high vs) s = .next ((s.pushBits vs).withTicks lt ld) := by
  induction vs generalizing s with
  | nil => exact ⟨s.lt, s.ld, rfl⟩
  | cons v vs ih =>
    obtain ⟨lt, ld, hpair, hrisen', hhigh⟩ := execAll_pulsePair hP hrisen (classify_nominal hcfg hf v)
    have hcfg' : ((s.pushBit v).withTicks lt ld).cfg = s.cfg := s.pushBit_cfg v
    have hP' : ((s.pushBit v).withTicks lt ld).profile = s.profile := s.pushBit_profile v
    obtain ⟨lt', ld', hrest⟩ := ih (hcfg'.trans hcfg) (by rw [hP', hcfg', hP]) hrisen'
    rw [hcfg', State.pushBits_withTicks] at hrest
    refine ⟨lt', ld', ?_⟩
    rw [sendBits, execAll_append hpair, ← hhigh]
    exact hrest

/-! ## The byte (R59, R113) -/

/-- A PUSH_BIT keeps a published, flagged buffer published and flagged. -/
theorem State.pushBit_published_flagged {s : State} (v : Bool) (hs : s.pub = s.frame ∧ s.dirty = true) :
    (s.pushBit v).pub = (s.pushBit v).frame ∧ (s.pushBit v).dirty = true := by
  cases hfull : s.full
  · exact ⟨State.pushBit_pub_of_room v hfull, State.pushBit_dirty_of_room v (s.full_eq_false_iff.1 hfull)⟩
  · rwa [State.pushBit_of_full v hfull]

theorem State.pushBits_published_flagged {s : State} (vs : List Bool) (hs : s.pub = s.frame ∧ s.dirty = true) :
    (s.pushBits vs).pub = (s.pushBits vs).frame ∧ (s.pushBits vs).dirty = true := by
  induction vs generalizing s with
  | nil => exact hs
  | cons v vs ih => exact ih (State.pushBit_published_flagged v hs)

/-- R109: the first of the bits finds room, so the buffer is published and flagged from then on. -/
theorem State.pushBits_published_flagged_of_room {s : State} (hroom : s.nbyte < s.cfg.frameBytes) {vs : List Bool}
    (hne : vs ≠ []) : (s.pushBits vs).pub = (s.pushBits vs).frame ∧ (s.pushBits vs).dirty = true := by
  obtain ⟨v, vs, rfl⟩ := List.exists_cons_of_ne_nil hne
  exact State.pushBits_published_flagged vs
    ⟨State.pushBit_pub_of_room v (s.full_eq_false_iff.2 hroom), State.pushBit_dirty_of_room v hroom⟩

theorem State.pushBits_profile (vs : List Bool) (s : State) : (s.pushBits vs).profile = s.profile := by
  induction vs generalizing s with
  | nil => rfl
  | cons v vs ih => rw [State.pushBits_cons, ih, State.pushBit_profile]

/-- Settles O59: the pulse pairs push the bits of `b` by `execAll_sendBits`, and eight bits replace a byte. -/
theorem receivedByteIsStored : Obligations.ReceivedByteIsStored := by
  rintro s P rows cols f b hP hcfg rfl hf hw hroom hstart hrisen
  have hbits := eightBitsReplaceAByte s _ b hP hw hroom hstart
  have hne : bitsOfByte b ≠ [] := List.cons_ne_nil _ _
  generalize bitsOfByte b = vs at hbits hne ⊢
  rw [execAll_pushBit_map hP] at hbits
  obtain ⟨_, ⟨⟩, hbyte, hothers, hnbyte, hnbit⟩ := hbits
  obtain ⟨lt, ld, hsend⟩ := execAll_sendBits hf vs hcfg hP hrisen
  obtain ⟨hpub, hdirty⟩ := State.pushBits_published_flagged_of_room hroom hne
  have hpublished (a : Nat) : (s.pushBits vs).pubByte a = (s.pushBits vs).frameByte a := by
    rw [State.pubByte, State.frameByte, hpub]
  exact ⟨_, hsend, hbyte, hothers, hpublished, hnbyte, hnbit, hdirty, State.pushBits_cfg vs s,
    State.pushBits_profile vs s⟩

end Machine

end Sys2Proof
end
